-- ==== Sys2Proof/Word.lean ====
section
/-!
DEFINITION. The words of the I2C-over-UART bridge: the byte (00_scope R6), the only unit the block moves
(20_memory R49), and the 16-bit length (R61).
-/
namespace Sys2Proof

/-- A byte is 8 bits (R6). -/
abbrev Byte := BitVec 8

/-- A length, and a buffer index register, is 16 bits (R5 `LEN_WIDTH`, R20, R21). -/
abbrev Half := BitVec 16

end Sys2Proof
end

