-- ==== Sys2Proof/Config.lean ====
section
/-!
DEFINITION. The constants the source fixes (00_scope R5) and the OPEN parameters an implementation or a model must fix
(R5, 92_eei_decisions "OPEN parameters, collected", 93 U14).
-/
namespace Sys2Proof

/-- `MAX_WRITE_LEN`: the largest `len` a WRITE accepts (R5, R170). -/
def Config.maxWriteLen : Nat := 126

/-- `CHUNK_W`: the largest payload of one bulk-write frame (R5, R171). -/
def Config.chunkW : Nat := 15

/-- `CHUNK_R`: the largest single receive request of the Combined input phase (R5, R151). -/
def Config.chunkR : Nat := 16

/-- `ZERO_RUN`: the number of `00` bytes of ENTER_BINARY (R5, R63). -/
def Config.zeroRun : Nat := 20

/-- The settings `configure()` applies to the serial line (R92, R220). -/
structure LineSettings where
  baud      : Nat
  dataBits  : Nat
  parity    : Bool
  stopBits  : Nat
  hwFlow    : Bool
  deriving DecidableEq, Repr

/-- `BAUD = 115200`, `LINE_FORMAT = 8N1`, `HW_FLOW` disabled (R5, R92, R220). -/
def Config.line : LineSettings :=
  { baud := 115200, dataBits := 8, parity := false, stopBits := 1, hwFlow := false }

/-- The OPEN parameters of one machine. They are arguments of the step relation (R32); the host's interface gives the
step no other argument than the state, so State carries them and no step changes them (DESIGN CHOICE, log entry 5). -/
structure Params where
  /-- `ADDR_SELECT_TAG`, second byte of ADDR_SELECT (R65, D8). -/
  addrSelectTag : Byte
  /-- `RESELECT_TAG`, second byte of RESELECT_READ (R66, D9). -/
  reselectTag   : Byte
  /-- `WTR_CMD`, the command byte of the combined frame (R73, D18). -/
  wtrCmd        : Byte
  /-- `RX_TIMEOUT`: `none`, or a duration. The model has no time, so only whether there is one matters (R218, D12). -/
  rxTimeout     : Option Nat
  deriving DecidableEq, Repr

/-- The defaults of R5, which the spec's test vectors use. -/
def Params.default : Params :=
  { addrSelectTag := 0x12#8, reselectTag := 0x11#8, wtrCmd := 0x08#8, rxTimeout := none }

end Sys2Proof
end

