-- ==== Sys2Proof/Syntax.lean ====
section
/-!
DEFINITION. The instructions: the five host operations and the three reserved operation codes of the host port (30_encoding
R60, R77), and the eleven wire frames (R62). One constructor per row of spec/opcode_table.json.
-/
namespace Sys2Proof

/-- `STRAT` and INIT's `strategy` operand (R13, R61): code 0 `PerByte`, code 1 `Combined`. -/
inductive Strategy where
  | perByte
  | combined
  deriving DecidableEq, Repr

/-- The direction bit of the I2C address byte: 0 write, 1 read (R45). -/
inductive Direction where
  | write
  | read
  deriving DecidableEq, Repr

/-- `path`: an opaque value, passed unchanged to the transport's `open` (R61, R91, D26). Nothing but equality of two
paths can be observed; the model names paths by numbers (DESIGN CHOICE, log entry 21). -/
abbrev Path := Nat

/-- The operands of a host request (R60, R61). `data` is `WBUF` for WRITE and `RBUF` for READ and has no field. -/
structure Operands where
  devId    : BitVec 7
  regAddr  : Byte
  len      : Half
  path     : Path
  strategy : Strategy
  delayMs  : BitVec 32
  deriving DecidableEq, Repr

/-- All operand fields zero: the fields a word of the opcode table does not give. -/
def Operands.zero : Operands :=
  { devId := 0, regAddr := 0, len := 0, path := 0, strategy := .perByte, delayMs := 0 }

/-- A host request, presented and accepted as one unit (R60). -/
structure Request where
  op   : BitVec 3
  args : Operands
  deriving DecidableEq, Repr

/-- One constructor per row of the opcode table. A host operation carries the whole operand record of its request, since
acceptance latches all of it (R103); a wire frame carries the fields of its format (R62 to R73). -/
inductive Instr where
  | init (q : Operands)
  | close (q : Operands)
  | write (q : Operands)
  | read (q : Operands)
  | delay (q : Operands)
  | reservedOp5 (q : Operands)
  | reservedOp6 (q : Operands)
  | reservedOp7 (q : Operands)
  | enterBinary
  | enterI2c
  | addrSelect (dev : BitVec 7) (dir : Direction) (reg : Byte)
  | reselectRead (dev : BitVec 7)
  | bulkHdr (n : BitVec 4)
  | bulkPayload (data : List Byte)
  | stop
  | readByte
  | endRead
  | resetTerm
  | wtr (r : Half) (out : List Byte)
  deriving DecidableEq, Repr

end Sys2Proof
end

