-- ==== Sys2Proof/WellFormed.lean ====
section
/-!
DEFINITION. Which instructions the spec gives a meaning: the forms the block emits (30_encoding R62, R77) and the
operation codes that are not reserved (R60).
-/
namespace Sys2Proof

/-- `true` for every form of every instruction that the spec does not call reserved or "never emitted" (R77). -/
def Instr.wellFormed : Instr → Bool
  | .init _ | .close _ | .write _ | .read _ | .delay _ => true
  | .reservedOp5 _ | .reservedOp6 _ | .reservedOp7 _ => false
  | .enterBinary | .enterI2c => true
  -- "ADDR_SELECT with d = 1: never emitted" (R77)
  | .addrSelect _ dir _ => dir == .write
  | .reselectRead _ => true
  -- "BULK_HDR 10 (n = 0): never emitted" (R77)
  | .bulkHdr n => n != 0
  -- "n bytes, 1 ≤ n ≤ 15" (R68)
  | .bulkPayload data => decide (1 ≤ data.length) && decide (data.length ≤ Config.chunkW)
  | .stop | .readByte | .endRead | .resetTerm => true
  -- the output payload is at most 128 bytes (R151, R180)
  | .wtr _ out => decide (out.length ≤ Config.maxWriteLen + 2)

end Sys2Proof
end

