-- ==== Sys2Proof/Decode.lean ====
section
/-!
DEFINITION. The wire constants of 30_encoding R62 in one place, field assembly (R74), the encoder of requests and frames
(R60 to R73), and the decoder, which is the adapter's side of the line: what a byte means depends on the mode (R76).
-/
namespace Sys2Proof

/-! ## Constants (R62 to R73, R81, R82) -/

/-- The start marker of the address-select frames (R82). -/
def startMarker : Byte := 0x02#8

/-- `"BBIO1"` (R63). -/
def binaryAck : List Byte := [0x42#8, 0x42#8, 0x49#8, 0x4F#8, 0x31#8]

/-- `"I2C1" 01 01` (R64). -/
def i2cAck : List Byte := [0x49#8, 0x32#8, 0x43#8, 0x31#8, 0x01#8, 0x01#8]

/-! ## Field assembly (R74) -/

/-- The direction bit (R45). -/
def directionBit : Direction → Byte
  | .write => 0#8
  | .read => 1#8

/-- The I2C address byte, `zext_8(DEV_ID) << 1 | dir` (R45, R74 item 1). -/
def addressByte (dev : BitVec 7) (dir : Direction) : Byte :=
  (dev.setWidth 8 <<< 1) ||| directionBit dir

/-- The bulk-write command byte, `0x10 | (n & 0x0f)` (R67, R74 item 2). -/
def bulkCommand (n : BitVec 4) : Byte :=
  0x10#8 ||| (n.setWidth 8 &&& 0x0F#8)

/-- `v[15:8]` (R47, R74 item 3). -/
def highByte (v : Half) : Byte := v.extractLsb' 8 8

/-- `v[7:0]` (R47, R74 item 3). -/
def lowByte (v : Half) : Byte := v.extractLsb' 0 8

/-- A 16-bit value from its two bytes, high byte first (R47). -/
def halfOf (hi lo : Byte) : Half := hi ++ lo

/-- A length as its two bytes on the wire: big-endian (R47 item 4). -/
def lengthBytes (v : Half) : List Byte := [highByte v, lowByte v]

/-! ## Encoding (R60, R62 to R73) -/

/-- The bytes of one `TX` of a wire frame (R62, D29); a host operation is no frame and has none. -/
def frameBytes (p : Params) : Instr → List Byte
  | .enterBinary => List.replicate Config.zeroRun 0x00#8
  | .enterI2c => [0x02#8, 0x48#8, 0x60#8]
  | .addrSelect dev dir reg => [startMarker, p.addrSelectTag, addressByte dev dir, reg]
  | .reselectRead dev => [startMarker, p.reselectTag, addressByte dev .read]
  | .bulkHdr n => [bulkCommand n]
  | .bulkPayload data => data
  | .stop => [0x03#8]
  | .readByte => [0x04#8, 0x06#8]
  | .endRead => [0x04#8, 0x07#8, 0x03#8]
  | .resetTerm => [0x00#8, 0x0F#8]
  | .wtr r out => p.wtrCmd :: (lengthBytes (BitVec.ofNat 16 out.length) ++ lengthBytes r ++ out)
  | .init _ | .close _ | .write _ | .read _ | .delay _ => []
  | .reservedOp5 _ | .reservedOp6 _ | .reservedOp7 _ => []

/-- The two things that are encoded: a request at the host port, or the bytes of a frame (30_encoding, opening). -/
inductive Encoded where
  | request (r : Request)
  | frame (bytes : List Byte)
  deriving DecidableEq, Repr

/-- The encoder. Operation codes are those of R60. -/
def encode (p : Params) (i : Instr) : Encoded :=
  match i with
  | .init q => .request { op := 0, args := q }
  | .close q => .request { op := 1, args := q }
  | .write q => .request { op := 2, args := q }
  | .read q => .request { op := 3, args := q }
  | .delay q => .request { op := 4, args := q }
  | .reservedOp5 q => .request { op := 5, args := q }
  | .reservedOp6 q => .request { op := 6, args := q }
  | .reservedOp7 q => .request { op := 7, args := q }
  | f => .frame (frameBytes p f)

/-! ## Decoding -/

/-- Why bytes are no frame. -/
inductive DecodeError where
  /-- The bytes end before the frame does. -/
  | truncated
  /-- No frame starts so in this mode (R77). -/
  | unknownCommand (b : Byte)
  /-- A start marker followed by a tag that is neither address-select tag (R65, R66). -/
  | unknownTag (b : Byte)
  /-- Bytes are left over after one frame. -/
  | trailingBytes
  deriving DecidableEq, Repr

/-- What the far side of the line knows when it reads a command (R76): the adapter's mode, and in the I2C mode the
strategy in use and whether a BULK_HDR has just announced a payload. -/
inductive WireMode where
  | terminal
  | binary
  | perByte
  | payload (n : Nat)
  | combined
  deriving DecidableEq, Repr

/-- The operation code of a request (R60); codes 5, 6, 7 are reserved (R77). -/
def decodeRequest (r : Request) : Instr :=
  if r.op = 0 then .init r.args
  else if r.op = 1 then .close r.args
  else if r.op = 2 then .write r.args
  else if r.op = 3 then .read r.args
  else if r.op = 4 then .delay r.args
  else if r.op = 5 then .reservedOp5 r.args
  else if r.op = 6 then .reservedOp6 r.args
  else .reservedOp7 r.args

/-- A decoded frame and the bytes after it. -/
abbrev Decoded := Except DecodeError (Instr × List Byte)

/-- The device address of an address byte (R45). -/
def deviceOf (a : Byte) : BitVec 7 := a.extractLsb' 1 7

/-- The direction of an address byte (R45). -/
def directionOf (a : Byte) : Direction := if a.getLsbD 0 then .read else .write

/-- After a start marker: RESELECT_READ has its tag and bit 0 of the address byte set (R66), ADDR_SELECT its own tag and
a register byte (R65). -/
def decodeSelect (p : Params) : List Byte → Decoded
  | tag :: a :: rest =>
    if tag = p.reselectTag ∧ directionOf a = .read then .ok (.reselectRead (deviceOf a), rest)
    else if tag = p.addrSelectTag then
      match rest with
      | reg :: rest' => .ok (.addrSelect (deviceOf a) (directionOf a) reg, rest')
      | [] => .error .truncated
    else .error (.unknownTag tag)
  | _ => .error .truncated

/-- After `04`: `06` is READ_BYTE (R70), `07 03` is END_READ (R71). -/
def decodeReadCommand : List Byte → Decoded
  | [] => .error .truncated
  | b :: rest =>
    if b = 0x06#8 then .ok (.readByte, rest)
    else if b = 0x07#8 then
      match rest with
      | c :: rest' => if c = 0x03#8 then .ok (.endRead, rest') else .error (.unknownCommand c)
      | [] => .error .truncated
    else .error (.unknownCommand b)

/-- RESET_TERM, which is sent in every mode (R62, R72). -/
def decodeResetTerm (bytes : List Byte) : Option (List Byte) :=
  match bytes with
  | b :: c :: rest => if b = 0x00#8 ∧ c = 0x0F#8 then some rest else none
  | _ => none

/-- Mode `terminal`, `CONN = Unknown`: ENTER_BINARY (R63). -/
def decodeTerminal (bytes : List Byte) : Decoded :=
  if bytes.length < Config.zeroRun then .error .truncated
  else if bytes.take Config.zeroRun = List.replicate Config.zeroRun 0x00#8 then
    .ok (.enterBinary, bytes.drop Config.zeroRun)
  else .error (.unknownCommand (bytes.headD 0))

/-- Mode `binary`, `CONN = BinaryMode`: ENTER_I2C (R64). -/
def decodeBinary : List Byte → Decoded
  | a :: b :: c :: rest =>
    if a = 0x02#8 ∧ b = 0x48#8 ∧ c = 0x60#8 then .ok (.enterI2c, rest) else .error (.unknownCommand a)
  | _ => .error .truncated

/-- I2C mode, PerByte strategy (R65 to R71). -/
def decodePerByte (p : Params) : List Byte → Decoded
  | [] => .error .truncated
  | b :: rest =>
    if b = startMarker then decodeSelect p rest
    else if b = 0x03#8 then .ok (.stop, rest)
    else if b = 0x04#8 then decodeReadCommand rest
    else if b.extractLsb' 4 4 = 1#4 then .ok (.bulkHdr (b.extractLsb' 0 4), rest)
    else .error (.unknownCommand b)

/-- I2C mode after a BULK_HDR: the next `n` bytes are the payload, whatever they are (R68, R76). -/
def decodePayload (n : Nat) (bytes : List Byte) : Decoded :=
  if bytes.length < n then .error .truncated else .ok (.bulkPayload (bytes.take n), bytes.drop n)

/-- I2C mode, Combined strategy: WTR (R73). -/
def decodeCombined (p : Params) : List Byte → Decoded
  | cmd :: wh :: wl :: rh :: rl :: rest =>
    if cmd = p.wtrCmd then
      let w := (halfOf wh wl).toNat
      if rest.length < w then .error .truncated
      else .ok (.wtr (halfOf rh rl) (rest.take w), rest.drop w)
    else .error (.unknownCommand cmd)
  | _ => .error .truncated

/-- One frame from the front of a byte sequence, in a mode. Payload bytes are never looked at as commands. -/
def decodeFrame (p : Params) (mode : WireMode) (bytes : List Byte) : Decoded :=
  match mode with
  | .payload n => decodePayload n bytes
  | mode' =>
    match decodeResetTerm bytes with
    | some rest => .ok (.resetTerm, rest)
    | none =>
      match mode' with
      | .terminal => decodeTerminal bytes
      | .binary => decodeBinary bytes
      | .perByte => decodePerByte p bytes
      | .combined => decodeCombined p bytes
      | .payload n => decodePayload n bytes

/-- The decoder, total on any request and on any bytes. -/
def decode (p : Params) (mode : WireMode) : Encoded → Except DecodeError Instr
  | .request r => .ok (decodeRequest r)
  | .frame bytes =>
    match decodeFrame p mode bytes with
    | .ok (i, []) => .ok i
    | .ok (_, _ :: _) => .error .trailingBytes
    | .error e => .error e

/-- The mode in which a frame is read (R62, column "sent when"; R76). RESET_TERM is read alike in all modes but inside
a payload; for a host operation the mode plays no part. -/
def Instr.mode : Instr → WireMode
  | .enterBinary => .terminal
  | .enterI2c => .binary
  | .bulkPayload data => .payload data.length
  | .wtr _ _ => .combined
  | _ => .perByte

/-! ## Words of the opcode table -/

/-- The `n` bytes of a table word, first byte on the wire first. The table numbers a frame as one number whose most
significant byte is the first byte (log entry 19). -/
def tableBytes : Nat → Nat → List Byte
  | 0, _ => []
  | n + 1, w => BitVec.ofNat 8 (w / 2 ^ (8 * n)) :: tableBytes n w

/-- The first mode, of those given, in which the bytes begin with a frame that leaves no more than the padding. -/
def decodeTableFrame (bytes : List Byte) (padding : Nat) : List WireMode → Option Instr
  | [] => none
  | mode :: modes =>
    match decodeFrame Params.default mode (bytes ++ List.replicate padding 0x00#8) with
    | .ok (i, rest) => if rest.length ≤ padding then some i else decodeTableFrame bytes padding modes
    | .error _ => decodeTableFrame bytes padding modes

/-- The host's question about one word of the opcode table (log entry 19). A row of fewer than 8 bits is a host
operation; of the 8-bit words 0 to 7 all but 3, which is STOP, are read as host operations; a row without bits is a
BULK_PAYLOAD of one zero byte. The operands that a word does not give are zero, and so are the payload bytes of a WTR,
at most 128 (R180), that it announces and does not give. -/
def decodeTableWord (nbits w : Nat) : Option Instr :=
  if nbits = 0 then some (.bulkPayload [0x00#8])
  else if nbits < 8 ∨ (nbits = 8 ∧ w < 8 ∧ w ≠ 3) then
    some (decodeRequest { op := BitVec.ofNat 3 w, args := Operands.zero })
  else
    let bytes := tableBytes ((nbits + 7) / 8) w
    let modes := [.perByte, .binary, .terminal, .combined]
    match decodeTableFrame bytes 0 modes with
    | some i => some i
    | none => decodeTableFrame bytes (Config.maxWriteLen + 2) modes

end Sys2Proof
end

