-- ==== Sys2Proof/Machine/State.lean ====
section
/-!
DEFINITION. The state of the bridge (10_state), the host port and the two host buffers (20_memory R40, 40 R103), the
transport and what the environment will answer (20_memory R46), the state after reset (70_reset R231), and the reasons a
step can stop.
-/
namespace Sys2Proof.Machine

/-- `CONN` (R10). -/
inductive Conn where
  | closed
  | unknown
  | binaryMode
  | i2cMode
  deriving DecidableEq, Repr

/-- `STATUS` (R14): codes 0 to 8 in this order; codes 9 to 15 are never written and are no values of the type (U11). -/
inductive Status where
  | ok
  | openError
  | configurationError
  | protocolMismatchError
  | shortWriteError
  | shortReadError
  | payloadTooLargeError
  | timeoutError
  | invalidStateError
  deriving DecidableEq, Repr

/-- `SEQ` (R16), by the spec's phase names. A done or abort phase carries the result it will report, since nothing else
of the block holds it (log entry 13); the phases of a Combined transaction say whether the frame in flight is the
operation's last one, since a READ has two (log entry 14). -/
inductive Seq where
  | idle
  | iCheck
  | iOpen
  | iConfig
  | iBinTx
  | iBinRx
  | iI2cTx
  | iI2cRx
  | iDone
  | aResetTx (e : Status)
  | aRelease (e : Status)
  | aDone (e : Status)
  | cCheck
  | cResetTx
  | cRelease
  | cDone (r : Status)
  | wCheck
  | wAddrTx
  | wAddrRx
  | wHdrTx
  | wHdrRx
  | wPayTx
  | wPayRx
  | wStopTx
  | wStopRx
  | wDone (r : Status)
  | rCheck
  | rAddrTx
  | rAddrRx
  | rReselTx
  | rReselRx
  | rByteTx
  | rByteRx
  | rEndTx
  | rEndRx
  | rDone (r : Status)
  | xCheck
  | xCmdTx (last : Bool)
  | xStatRx (last : Bool)
  | xDataRx (last : Bool)
  | xDone (r : Status)
  | dWait
  | dDone
  /-- The abort phase of a WRITE or READ (R213), reporting `e`. -/
  | raised (e : Status)
  deriving DecidableEq, Repr

/-- A byte buffer of the host (R40): index and byte pairs, indices strictly rising, no byte equal to what an unlisted
index reads as. -/
abbrev Memory := List Host.Cell

/-- The answer of `open` or `configure` (R91, R92). -/
inductive ControlAnswer where
  | ok
  | fail
  deriving DecidableEq, Repr

/-- The answer of `TX(s)` (R93): a count, or an I/O error after some bytes of `s` went out. A number above `|s|` stands
for `|s|` (log entry 3). -/
inductive TxAnswer where
  | count (c : Nat)
  | ioError (c : Nat)
  deriving DecidableEq, Repr

/-- How `RX(n)` returns (R94): with `c` bytes, with an I/O error, or by the timeout. A count above `n`, or above what the
receive stream holds, stands for the largest possible one (log entry 3). -/
inductive RxReturn where
  | count (c : Nat)
  | ioError
  | timeout
  deriving DecidableEq, Repr

/-- The answer of `RX(n)`: the bytes that have reached the receive stream by the time it returns (log entry 4), and how
it returns. -/
structure RxAnswer where
  arriving : List Byte
  result   : RxReturn
  deriving DecidableEq, Repr

/-- What a `TX` gave: as `TxAnswer`, with `c ≤ |s|`. -/
abbrev TxResult := TxAnswer

/-- What an `RX` gave: the bytes returned, or the error (R94). -/
inductive RxResult where
  | bytes (a : List Byte)
  | ioError
  | timeout
  deriving DecidableEq, Repr

/-- A transport call that has returned (R90 to R95), with its operand and result. -/
inductive Call where
  | openPath (path : Path) (answer : ControlAnswer)
  | configure (line : LineSettings) (answer : ControlAnswer)
  | tx (s : List Byte) (result : TxResult)
  | rx (n : Nat) (result : RxResult)
  | release
  deriving DecidableEq, Repr

/-- The serial link and the environment behind it (R43, R46). -/
structure Link where
  /-- The receive stream: bytes the adapter has sent and the block has not yet received, oldest first (R30, R43). -/
  rx      : List Byte
  /-- The answers the environment will give, first one next; an empty list: the call does not return (log entry 2). -/
  opens   : List ControlAnswer
  configs : List ControlAnswer
  sends   : List TxAnswer
  recvs   : List RxAnswer
  /-- The transport calls that have returned, oldest first (00_scope section 7; log entry 20). -/
  wire    : List Call
  deriving DecidableEq, Repr

/-- The machine. -/
structure State where
  /-- The OPEN parameters, fixed for a machine (R5, R32; log entry 5). -/
  params   : Params
  conn     : Conn
  strat    : Strategy
  status   : Status
  busy     : Bool
  desync   : Bool
  /-- `AWAIT` (R26). -/
  await    : BitVec 17
  seq      : Seq
  /-- `OP` (R18). -/
  op       : BitVec 3
  /-- `DEV_ID`, `REG_ADDR`, `LEN`, `PATH`, the latched `strategy`, `DELAY_MS` (R18, R103). -/
  args     : Operands
  /-- `CURSOR` (R20). -/
  cursor   : Half
  /-- `REMAIN` (R21). -/
  remain   : Half
  /-- `CHUNK_N` (R22). -/
  chunkN   : BitVec 5
  /-- `ABUF` (R23): the bytes the last `RX` returned, at most 16. -/
  abuf     : List Byte
  /-- The request waiting at the host port (R103). -/
  port     : Option Request
  /-- A reset that is due, with the receive stream the link holds after it (R230, R233, U17; log entry 10). -/
  resetReq : Option (List Byte)
  wbuf     : Memory
  rbuf     : Memory
  link     : Link
  deriving DecidableEq, Repr

/-- The machine stops: a precondition of a transport call or of a buffer access is broken. None of these can happen in
a state that meets the invariant of Safety.lean; each is SAFE (the model stops where the spec gives no behaviour). -/
inductive Fault where
  /-- `open` with the transport already held (R91 "only when `CONN = Closed`"). Raised by INIT. Safe. -/
  | transportAlreadyHeld
  /-- `configure`, `TX`, `RX` or `release` without the transport (R93, R94, R96). Raised by INIT, CLOSE and every frame. Safe. -/
  | transportNotHeld
  /-- `TX` while an acknowledgment is owed, or of no byte (R93, R97). Raised by every frame. Safe. -/
  | sendNotPermitted
  /-- `RX(n)` with `n` 0, above 16 or above what is owed (R94, R98). Raised by every frame but RESET_TERM. Safe. -/
  | receiveNotPermitted
  /-- A buffer index not below `LEN` (R41, R42). Raised by BULK_PAYLOAD, READ_BYTE and WTR. Safe. -/
  | bufferOverrun
  deriving DecidableEq, Repr

/-- The model gives the instruction no meaning here. -/
inductive Refusal where
  /-- Raised by the dispatcher for an instruction without a meaning; no arm does. Safe. -/
  | notModelled (mnemonic : String)
  /-- A reserved operation code: "a model refuses the request" (R77, U1). Raised by RESERVED_OP_5, 6 and 7. Safe. -/
  | reservedOperation (code : BitVec 3)
  /-- An instruction executed where SEQ does not call for it; the step function never does that. Raised by every
  instruction. Safe. -/
  | notDue (mnemonic : String)
  deriving DecidableEq, Repr

/-- The link as the state after reset shows it: nothing received, nothing to come, no history (log entry 7). -/
def Link.empty : Link :=
  { rx := [], opens := [], configs := [], sends := [], recvs := [], wire := [] }

/-- The machine right after reset (R231). The registers for which R231 says "unspecified" hold zero (log entry 6). -/
def State.reset : State :=
  { params := Params.default, conn := .closed, strat := .perByte, status := .ok, busy := false, desync := false,
    await := 0, seq := .idle, op := 0, args := Operands.zero, cursor := 0, remain := 0, chunkN := 0, abuf := [],
    port := none, resetReq := none, wbuf := [], rbuf := [], link := Link.empty }

end Sys2Proof.Machine
end

