-- ==== Sys2Proof/Machine/Flags.lean ====
section
/-!
DEFINITION. The comparisons the sequencer makes (10_state R27), the checks of an acknowledgment (30_encoding R75,
42_frame_codec R152), the flags' numeric codes, and what the host can read by name (10_state section 1).
-/
namespace Sys2Proof.Machine

/-- Outcome of a meaning. -/
abbrev Out := Host.Outcome State Fault Refusal

/-! ## Comparisons (R27, R182) -/

/-- `LEN > 126`, unsigned (R170). -/
def lenTooLong (len : Half) : Bool := decide (Config.maxWriteLen < len.toNat)

/-- `CURSOR < LEN`, the loop condition of WRITE and PerByte READ (R171, R173). -/
def moreBytes (cursor len : Half) : Bool := decide (cursor.toNat < len.toNat)

/-! ## Acknowledgment checks (R75, R152) -/

/-- The length check: exactly `k` bytes. -/
def ackLengthOk (k : Nat) (a : List Byte) : Bool := a.length == k

/-- The content check: every byte equals the literal, position by position. -/
def ackContentOk (literal a : List Byte) : Bool := a == literal

/-- The status check of WTR: the first byte is non-zero. -/
def ackStatusOk (a : List Byte) : Bool := a.headD 0 != 0

/-! ## Numeric codes (R10, R13, R14) -/

def Conn.code : Conn → BitVec 2
  | .closed => 0
  | .unknown => 1
  | .binaryMode => 2
  | .i2cMode => 3

def strategyCode : Strategy → BitVec 1
  | .perByte => 0
  | .combined => 1

def Status.code : Status → BitVec 4
  | .ok => 0
  | .openError => 1
  | .configurationError => 2
  | .protocolMismatchError => 3
  | .shortWriteError => 4
  | .shortReadError => 5
  | .payloadTooLargeError => 6
  | .timeoutError => 7
  | .invalidStateError => 8

/-- The registers the host can read, by name: every register of 10_state but those it calls internal (60_exceptions R219,
10_state section 1, R15; log entry 25). -/
inductive HostReg where
  | conn
  | strat
  | status
  | busy
  | desync
  | op
  | devId
  | regAddr
  | len
  | delayMs
  | path
  deriving DecidableEq, Repr

/-- The number the host reads, of the width of the register; a path is its name (log entry 21). A read changes nothing
(R10, R15). -/
def hostRead (s : State) : HostReg → Nat
  | .conn => s.conn.code.toNat
  | .strat => (strategyCode s.strat).toNat
  | .status => s.status.code.toNat
  | .busy => s.busy.toNat
  | .desync => s.desync.toNat
  | .op => s.op.toNat
  | .devId => s.args.devId.toNat
  | .regAddr => s.args.regAddr.toNat
  | .len => s.args.len.toNat
  | .delayMs => s.args.delayMs.toNat
  | .path => s.args.path

end Sys2Proof.Machine
end

