-- ==== Sys2Proof/Machine/Ops.lean ====
section
/-!
DEFINITION. The shared operations: host buffers (20_memory R41, R42), the five transport calls (40_transport_arbiter R90
to R95), one exchange (R100), accepting a request (R103), completing an operation (R104), raising an error (60_exceptions
R213) and reset (70_reset R230 to R233).
-/
namespace Sys2Proof.Machine

/-! ## Host buffers -/

/-- What an index nothing has written reads as (log entry 8). -/
def Memory.unlisted : Byte := 0x00#8

/-- One byte of a buffer: `MemRead(B + i, 1)` (R41). -/
def Memory.read (m : Memory) (i : Nat) : Byte :=
  match m with
  | [] => Memory.unlisted
  | (a, b) :: rest => if a = i then b else Memory.read rest i

/-- The buffer with index `i` holding `v`, in canonical form: `MemWrite(B + i, 1, v)` (R42). -/
def Memory.write (m : Memory) (i : Nat) (v : Byte) : Memory :=
  match m with
  | [] => if v = Memory.unlisted then [] else [(i, v)]
  | (a, b) :: rest =>
    if a < i then (a, b) :: Memory.write rest i v
    else
      let tail := if a = i then rest else (a, b) :: rest
      if v = Memory.unlisted then tail else (i, v) :: tail

/-- Bytes stored at rising indices from `i` on (R42, R47 item 3). -/
def Memory.writeAll (m : Memory) (i : Nat) : List Byte → Memory
  | [] => m
  | v :: vs => Memory.writeAll (m.write i v) (i + 1) vs

/-- The `n` bytes from index `i` on, in increasing order (R41, R144). -/
def Memory.readAll (m : Memory) (i : Nat) : Nat → List Byte
  | 0 => []
  | n + 1 => m.read i :: Memory.readAll m (i + 1) n

/-- All indices are at least `lo`, strictly rising, and no byte is the unlisted one. -/
def Memory.wfFrom (lo : Nat) : Memory → Bool
  | [] => true
  | (a, b) :: rest => decide (lo ≤ a) && (b != Memory.unlisted) && Memory.wfFrom (a + 1) rest

/-- The canonical form. -/
def Memory.wf (m : Memory) : Bool := Memory.wfFrom 0 m

/-! ## Raising an error and completing (R104, R213) -/

/-- The class of an exchange (R100): negotiation, or a frame of a WRITE or READ. -/
inductive ExchangeClass where
  | neg
  | txn
  deriving DecidableEq, Repr

/-- `raise e` (R213): nothing more of the operation runs, `AWAIT <- 0` (R99), and SEQ goes to the abort phase: the abort
sequence in INIT (R125), the abort phase of a WRITE or READ otherwise. -/
def raiseError (cls : ExchangeClass) (e : Status) (s : State) : State :=
  match cls with
  | .neg => { s with await := 0, seq := .aResetTx e }
  | .txn => { s with await := 0, seq := .raised e }

/-- The completion step, which hands control back to the host (R104, R213 item 4). -/
def complete (r : Status) (s : State) : State :=
  { s with status := r, await := 0, busy := false, seq := .idle }

/-- Acceptance of a request (R103): its operation and all its operands are latched together. -/
def accept (code : BitVec 3) (q : Operands) (first : Seq) (s : State) : State :=
  { s with op := code, args := q, busy := true, seq := first, port := none }

/-- Every transition of CONN to Closed clears DESYNC (R25, R125, R126). -/
def closeConn (s : State) : State :=
  { s with conn := .closed, desync := false }

/-! ## The transport port (R90 to R95) -/

/-- A transport call either breaks its precondition, or has not returned, or has returned. -/
inductive CallResult (α : Type) where
  | fault (f : Fault)
  | waiting
  | returned (a : α) (t : State)

/-- A returned call in the link's history. -/
def record (c : Call) (l : Link) : Link := { l with wire := l.wire ++ [c] }

/-- `open(path)` (R91). -/
def openTransport (path : Path) (s : State) : CallResult ControlAnswer :=
  if s.conn ≠ .closed then .fault .transportAlreadyHeld
  else
    match s.link.opens with
    | [] => .waiting
    | a :: rest => .returned a { s with link := record (.openPath path a) { s.link with opens := rest } }

/-- `configure()` with the fixed settings (R92). -/
def configureLine (s : State) : CallResult ControlAnswer :=
  if s.conn = .closed then .fault .transportNotHeld
  else
    match s.link.configs with
    | [] => .waiting
    | a :: rest =>
      .returned a { s with link := record (.configure Config.line a) { s.link with configs := rest } }

/-- An answer of `TX` brought into the set R93 allows for `n` bytes. -/
def boundTx (n : Nat) : TxAnswer → TxResult
  | .count c => .count (min c n)
  | .ioError c => .ioError (min c n)

/-- After a `TX`: the answer is used up and the call recorded. -/
def afterTx (bytes : List Byte) (r : TxResult) (rest : List TxAnswer) (s : State) : State :=
  { s with link := record (.tx bytes r) { s.link with sends := rest } }

/-- `TX(s)` (R93): one call, no retry for the unsent rest; only with the transport held, nothing owed (R97) and at least
one byte. -/
def transmit (bytes : List Byte) (s : State) : CallResult TxResult :=
  if s.conn = .closed then .fault .transportNotHeld
  else if s.await ≠ 0 ∨ bytes = [] then .fault .sendNotPermitted
  else
    match s.link.sends with
    | [] => .waiting
    | a :: rest => .returned (boundTx bytes.length a) (afterTx bytes (boundTx bytes.length a) rest s)

/-- After an `RX(n)` that returned `got`: ABUF holds it, AWAIT is less by its length (R99), the rest of the stream
stays (R30, R43). -/
def afterRx (n : Nat) (got left : List Byte) (rest : List RxAnswer) (s : State) : State :=
  { s with abuf := got, await := s.await - BitVec.ofNat 17 got.length,
           link := record (.rx n (.bytes got)) { s.link with recvs := rest, rx := left } }

/-- After an `RX(n)` that returned an error: nothing is taken from the stream. -/
def afterRxError (n : Nat) (r : RxResult) (stream : List Byte) (rest : List RxAnswer) (s : State) : State :=
  { s with link := record (.rx n r) { s.link with recvs := rest, rx := stream } }

/-- `RX(n)` (R94): one call; only with the transport held, `1 ≤ n ≤ 16` and `n ≤ AWAIT` (R98). The bytes returned are
taken from the head of the receive stream (R43). Without `RX_TIMEOUT` a timeout never comes and the call does not return
(R218; log entry 16). -/
def receive (n : Nat) (s : State) : CallResult RxResult :=
  if s.conn = .closed then .fault .transportNotHeld
  else if n = 0 ∨ Config.chunkR < n ∨ s.await.toNat < n then .fault .receiveNotPermitted
  else
    match s.link.recvs with
    | [] => .waiting
    | a :: rest =>
      let stream := s.link.rx ++ a.arriving
      match a.result with
      | .count c =>
        .returned (.bytes (stream.take (min c n))) (afterRx n (stream.take (min c n)) (stream.drop (min c n)) rest s)
      | .ioError => .returned .ioError (afterRxError n .ioError stream rest s)
      | .timeout =>
        if s.params.rxTimeout = none then .waiting
        else .returned .timeout (afterRxError n .timeout stream rest s)

/-- `release()` (R95): always succeeds; the receive stream is not touched; `CONN <- Closed` in the same step. -/
def releaseTransport (s : State) : CallResult Unit :=
  if s.conn = .closed then .fault .transportNotHeld
  else .returned () (closeConn { s with link := record .release s.link })

/-- The bytes the far side has been sent: the accepted part of every `TX`, in order (R43, R54). -/
def acceptedBytes : Call → List Byte
  | .tx s (.count c) => s.take c
  | .tx s (.ioError c) => s.take c
  | _ => []

/-- The transmit stream (R40, R54). -/
def State.txStream (s : State) : List Byte := s.link.wire.flatMap acceptedBytes

/-! ## One exchange (R100) -/

/-- The error of a wrong send count (R101). -/
def sendError : ExchangeClass → Status
  | .neg => .protocolMismatchError
  | .txn => .shortWriteError

/-- The send half of an exchange: `TX(s)`, the count check, `AWAIT <- k`, on to phase `rxPhase` (R100). -/
def sendFrame (cls : ExchangeClass) (bytes : List Byte) (k : BitVec 17) (rxPhase : Seq) (s : State) : Out :=
  match transmit bytes s with
  | .fault f => .fault f
  | .waiting => .next s
  | .returned r t =>
    if r = .count bytes.length then .next { t with await := k, seq := rxPhase }
    else .next (raiseError cls (sendError cls) t)

/-- `RX(k)` of an acknowledgment with its length check, then `go` on the state that holds the `k` bytes in ABUF (R100,
R152). -/
def receiveExactly (cls : ExchangeClass) (k : Nat) (go : State → Out) (s : State) : Out :=
  match receive k s with
  | .fault f => .fault f
  | .waiting => .next s
  | .returned .timeout t => .next (raiseError cls .timeoutError t)
  | .returned .ioError t => .next (raiseError cls .protocolMismatchError t)
  | .returned (.bytes a) t =>
    if ackLengthOk k a then go t else .next (raiseError cls .protocolMismatchError t)

/-- The receive half of an exchange whose acknowledgment content is not compared: `AWAIT <- 0`, then `go` (R100, R75). -/
def receiveAck (cls : ExchangeClass) (k : Nat) (go : State → Out) (s : State) : Out :=
  receiveExactly cls k (fun t => go { t with await := 0 }) s

/-- The receive half of a negotiation exchange: the content must equal the literal (R75, R122, R123). -/
def receiveLiteral (literal : List Byte) (go : State → Out) (s : State) : Out :=
  receiveAck .neg literal.length
    (fun t => if ackContentOk literal t.abuf then go t else .next (raiseError .neg .protocolMismatchError t)) s

/-- RESET_TERM's send: the result is ignored and nothing is received (R128, R149, R217). -/
def sendBestEffort (bytes : List Byte) (after : Seq) (s : State) : Out :=
  match transmit bytes s with
  | .fault f => .fault f
  | .waiting => .next s
  | .returned _ t => .next { t with seq := after }

/-! ## Reset (R230 to R233) -/

/-- Reset: the block's registers take their reset values, the transport is dropped without RESET_TERM and without
`release()`; the parameters, the host's buffers and request, and the environment's answers are not the block's, and the
receive stream is whatever the link holds afterwards (R232, R233, U17). DESIGN CHOICE, unsafe (log entry 31): R233 says
that a frame may be left half sent, and here a `TX` the reset cuts has sent nothing: no part of its frame is in the history
or in the transmit stream. -/
def applyReset (backlog : List Byte) (s : State) : State :=
  { State.reset with
    params := s.params, port := s.port, wbuf := s.wbuf, rbuf := s.rbuf, link := { s.link with rx := backlog } }

end Sys2Proof.Machine
end

