-- ==== Sys2Proof/Machine/Operands.lean ====
section
/-!
DEFINITION. The operand forms: chunk sizes (43_bridge_ops R171, 42_frame_codec R151), the frames a transaction's
registers and buffer give (R141 to R151, R178, R179), and the instruction that SEQ calls for (10_state R16).
-/
namespace Sys2Proof.Machine

/-- `min(15, len - CURSOR)` (R171, R182). -/
def writeChunk (cursor len : Half) : BitVec 5 :=
  BitVec.ofNat 5 (min Config.chunkW (len.toNat - cursor.toNat))

/-- `min(16, REMAIN)` (R151, R182). -/
def inputChunk (remain : Half) : BitVec 5 :=
  BitVec.ofNat 5 (min Config.chunkR remain.toNat)

/-- The ADDR_SELECT of the operation in flight (R141: direction write). -/
def addrSelectOf (q : Operands) : Instr := .addrSelect q.devId .write q.regAddr

/-- The payload of the chunk in flight, `WBUF[CURSOR .. CURSOR + CHUNK_N - 1]` (R68, R144). -/
def payloadOf (s : State) : List Byte := s.wbuf.readAll s.cursor.toNat s.chunkN.toNat

/-- The combined frame of a WRITE: address byte, register byte, then the whole payload; no input (R178). -/
def wtrOfWrite (q : Operands) (wbuf : Memory) : Instr :=
  .wtr 0 (addressByte q.devId .write :: q.regAddr :: wbuf.readAll 0 q.len.toNat)

/-- The first combined frame of a READ: it sets the register pointer (R179). -/
def wtrOfReadPointer (q : Operands) : Instr := .wtr 0 [addressByte q.devId .write, q.regAddr]

/-- The second combined frame of a READ: its input phase receives `len` bytes (R179). -/
def wtrOfReadData (q : Operands) : Instr := .wtr q.len [addressByte q.devId .read]

/-- The transaction in flight as an instruction: direction is `OP` (R18). -/
def transactionOf (s : State) : Instr := if s.op = 2 then .write s.args else .read s.args

/-- The combined frame in flight (R178, R179). -/
def wtrOf (last : Bool) (s : State) : Instr :=
  if s.op = 2 then wtrOfWrite s.args s.wbuf
  else if last then wtrOfReadData s.args
  else wtrOfReadPointer s.args

/-- The instruction SEQ calls for (R16): in a `TX` or `RX` phase the frame in flight, in any other phase the operation
in flight, both built from the latched operands. -/
def phaseInstr (s : State) : Option Instr :=
  match s.seq with
  | .idle => none
  | .iCheck | .iOpen | .iConfig | .iDone | .aRelease _ | .aDone _ => some (.init s.args)
  | .iBinTx | .iBinRx => some .enterBinary
  | .iI2cTx | .iI2cRx => some .enterI2c
  | .aResetTx _ | .cResetTx => some .resetTerm
  | .cCheck | .cRelease | .cDone _ => some (.close s.args)
  | .wCheck | .wDone _ => some (.write s.args)
  | .wAddrTx | .wAddrRx | .rAddrTx | .rAddrRx => some (addrSelectOf s.args)
  | .wHdrTx | .wHdrRx => some (.bulkHdr (s.chunkN.setWidth 4))
  | .wPayTx | .wPayRx => some (.bulkPayload (payloadOf s))
  | .wStopTx | .wStopRx => some .stop
  | .rCheck | .rDone _ => some (.read s.args)
  | .rReselTx | .rReselRx => some (.reselectRead s.args.devId)
  | .rByteTx | .rByteRx => some .readByte
  | .rEndTx | .rEndRx => some .endRead
  | .xCheck | .xDone _ | .raised _ => some (transactionOf s)
  | .xCmdTx last | .xStatRx last | .xDataRx last => some (wtrOf last s)
  | .dWait | .dDone => some (.delay s.args)

/-- The instruction the next step executes: with an operation in flight the one SEQ calls for, otherwise the request at
the port, if there is one (R16, R103). -/
def fetch (s : State) : Option Instr :=
  if s.busy then phaseInstr s else s.port.map decodeRequest

end Sys2Proof.Machine
end

