-- ==== Sys2Proof/Machine/Bridge.lean ====
section
/-!
DEFINITION. The bridge operations (43_bridge_ops): WRITE, READ and DELAY, and the reserved operation codes (30_encoding
R77). The frames a transaction sends are the instructions of Codec.lean and Combined.lean.
-/
namespace Sys2Proof.Machine

/-- The first phase of a transaction, by strategy (R16, R176). -/
def firstPhase (strat : Strategy) (perByte : Seq) : Seq :=
  match strat with
  | .perByte => perByte
  | .combined => .xCheck

/-- The checks of WRITE, in order: state, then length (R170). -/
def writeCheck (conn : Conn) (len : Half) : Option Status :=
  if conn ≠ .i2cMode then some .invalidStateError
  else if lenTooLong len then some .payloadTooLargeError
  else none

/-- The check of READ: state only (R170). -/
def readCheck (conn : Conn) : Option Status :=
  if conn ≠ .i2cMode then some .invalidStateError else none

/-- After the checks of a PerByte transaction. -/
def afterCheck (result : Option Status) (done : Status → Seq) (go : Seq) (s : State) : State :=
  match result with
  | some e => { s with seq := done e }
  | none => { s with seq := go }

/-- After the checks of a Combined transaction: `CURSOR <- 0`, then the first frame (R178, R179). -/
def afterCombinedCheck (result : Option Status) (last : Bool) (s : State) : State :=
  match result with
  | some e => { s with seq := .xDone e }
  | none => { s with cursor := 0, seq := .xCmdTx last }

/-- The abort phase of a WRITE or READ: `DESYNC <- 1`, then the completion step (R186, R213, R214). -/
def abortTransaction (e : Status) (s : State) : State :=
  complete e { s with desync := true }

/-- WRITE (R170, R171, R178). -/
def execWrite (q : Operands) (s : State) : Out :=
  if s.busy = false then .next (accept 2 q (firstPhase s.strat .wCheck) s)
  else
    match s.seq with
    | .wCheck => .next (afterCheck (writeCheck s.conn q.len) .wDone .wAddrTx s)
    | .xCheck => .next (afterCombinedCheck (writeCheck s.conn q.len) true s)
    | .wDone r => .next (complete r s)
    | .xDone r => .next (complete r s)
    | .raised e => .next (abortTransaction e s)
    | _ => .refused (.notDue "WRITE")

/-- READ (R170, R173, R179). -/
def execRead (q : Operands) (s : State) : Out :=
  if s.busy = false then .next (accept 3 q (firstPhase s.strat .rCheck) s)
  else
    match s.seq with
    | .rCheck => .next (afterCheck (readCheck s.conn) .rDone .rAddrTx s)
    | .xCheck => .next (afterCombinedCheck (readCheck s.conn) false s)
    | .rDone r => .next (complete r s)
    | .xDone r => .next (complete r s)
    | .raised e => .next (abortTransaction e s)
    | _ => .refused (.notDue "READ")

/-- DELAY (R185): no transport call; without time the wait has no effect. -/
def execDelay (q : Operands) (s : State) : Out :=
  if s.busy = false then .next (accept 4 q .dWait s)
  else
    match s.seq with
    | .dWait => .next { s with seq := .dDone }
    | .dDone => .next (complete .ok s)
    | _ => .refused (.notDue "DELAY")

/-- Operation code 5 is reserved: "a model refuses the request" (R77, U1). -/
def execReservedOp5 (_q : Operands) (_s : State) : Out := .refused (.reservedOperation 5)

/-- Operation code 6 is reserved: "a model refuses the request" (R77, U1). -/
def execReservedOp6 (_q : Operands) (_s : State) : Out := .refused (.reservedOperation 6)

/-- Operation code 7 is reserved: "a model refuses the request" (R77, U1). -/
def execReservedOp7 (_q : Operands) (_s : State) : Out := .refused (.reservedOperation 7)

end Sys2Proof.Machine
end

