-- ==== Sys2Proof/Machine/Codec.lean ====
section
/-!
DEFINITION. The frames of the PerByte strategy (42_frame_codec R141 to R148). Each has a send phase and a receive phase
(R100); what follows a validated acknowledgment is the next line of the pseudocode of WRITE (43_bridge_ops R171) or READ
(R173).
-/
namespace Sys2Proof.Machine

/-- The loop head of WRITE, "while bytes remain" (R171): the next chunk, or the stop frame. -/
def nextChunk (s : State) : State :=
  if moreBytes s.cursor s.args.len then { s with chunkN := writeChunk s.cursor s.args.len, seq := .wHdrTx }
  else { s with seq := .wStopTx }

/-- The loop head of PerByte READ, "for each of len bytes" (R173): the next byte, or the end-of-read frame. -/
def nextByte (s : State) : State :=
  { s with seq := if moreBytes s.cursor s.args.len then .rByteTx else .rEndTx }

/-- ADDR_SELECT (R65, R141), the first frame of WRITE and of READ. -/
def execAddrSelect (dev : BitVec 7) (dir : Direction) (reg : Byte) (s : State) : Out :=
  match s.seq with
  | .wAddrTx => sendFrame .txn (frameBytes s.params (.addrSelect dev dir reg)) 4 .wAddrRx s
  | .wAddrRx => receiveAck .txn 4 (fun t => .next (nextChunk { t with cursor := 0 })) s
  | .rAddrTx => sendFrame .txn (frameBytes s.params (.addrSelect dev dir reg)) 4 .rAddrRx s
  | .rAddrRx => receiveAck .txn 4 (fun t => .next { t with seq := .rReselTx }) s
  | _ => .refused (.notDue "ADDR_SELECT")

/-- RESELECT_READ (R66, R142), the second frame of READ. -/
def execReselectRead (dev : BitVec 7) (s : State) : Out :=
  match s.seq with
  | .rReselTx => sendFrame .txn (frameBytes s.params (.reselectRead dev)) 3 .rReselRx s
  | .rReselRx => receiveAck .txn 3 (fun t => .next (nextByte { t with cursor := 0 })) s
  | _ => .refused (.notDue "RESELECT_READ")

/-- BULK_HDR (R67, R143). -/
def execBulkHdr (n : BitVec 4) (s : State) : Out :=
  match s.seq with
  | .wHdrTx => sendFrame .txn (frameBytes s.params (.bulkHdr n)) 1 .wHdrRx s
  | .wHdrRx => receiveAck .txn 1 (fun t => .next { t with seq := .wPayTx }) s
  | _ => .refused (.notDue "BULK_HDR")

/-- BULK_PAYLOAD (R68, R144); after its acknowledgment the cursor advances by the chunk size (R171). -/
def execBulkPayload (data : List Byte) (s : State) : Out :=
  match s.seq with
  | .wPayTx =>
    if s.args.len.toNat < s.cursor.toNat + data.length then .fault .bufferOverrun
    else sendFrame .txn (frameBytes s.params (.bulkPayload data)) (BitVec.ofNat 17 data.length) .wPayRx s
  | .wPayRx =>
    receiveAck .txn data.length
      (fun t => .next (nextChunk { t with cursor := t.cursor + BitVec.ofNat 16 data.length })) s
  | _ => .refused (.notDue "BULK_PAYLOAD")

/-- STOP (R69, R146). -/
def execStop (s : State) : Out :=
  match s.seq with
  | .wStopTx => sendFrame .txn (frameBytes s.params .stop) 1 .wStopRx s
  | .wStopRx => receiveAck .txn 1 (fun t => .next { t with seq := .wDone .ok }) s
  | _ => .refused (.notDue "STOP")

/-- "Store the returned byte, advance destination cursor by 1" (R42, R173). -/
def storeByte (t : State) : Out :=
  if moreBytes t.cursor t.args.len then
    .next (nextByte { t with rbuf := t.rbuf.write t.cursor.toNat (t.abuf.headD 0), cursor := t.cursor + 1 })
  else .fault .bufferOverrun

/-- READ_BYTE (R70, R147): the acknowledgment byte is the data. -/
def execReadByte (s : State) : Out :=
  match s.seq with
  | .rByteTx => sendFrame .txn (frameBytes s.params .readByte) 1 .rByteRx s
  | .rByteRx => receiveAck .txn 1 storeByte s
  | _ => .refused (.notDue "READ_BYTE")

/-- END_READ (R71, R148). -/
def execEndRead (s : State) : Out :=
  match s.seq with
  | .rEndTx => sendFrame .txn (frameBytes s.params .endRead) 3 .rEndRx s
  | .rEndRx => receiveAck .txn 3 (fun t => .next { t with seq := .rDone .ok }) s
  | _ => .refused (.notDue "END_READ")

end Sys2Proof.Machine
end

