-- ==== Sys2Proof/Machine/Combined.lean ====
section
/-!
DEFINITION. The frame of the Combined strategy, WTR (42_frame_codec R151, 43_bridge_ops R181).
-/
namespace Sys2Proof.Machine

/-- The head of the input loop, "while REMAIN > 0" (R151): the next receive request, or the end of the frame. After the
operation's last frame comes its completion, after a READ's first frame its second (R179). -/
def nextInput (last : Bool) (s : State) : State :=
  if s.remain = 0 then { s with seq := if last then .xDone .ok else .xCmdTx true }
  else { s with chunkN := inputChunk s.remain, seq := .xDataRx last }

/-- The status byte (R151): zero raises, non-zero starts the input phase with `REMAIN <- r`. -/
def checkStatus (last : Bool) (r : Half) (t : State) : Out :=
  if ackStatusOk t.abuf then .next (nextInput last { t with remain := r })
  else .next (raiseError .txn .protocolMismatchError t)

/-- Input bytes stored at CURSOR upward, CURSOR and REMAIN moved by their number (R42, R151). -/
def storeInput (last : Bool) (d : List Byte) (t : State) : Out :=
  if t.args.len.toNat < t.cursor.toNat + d.length then .fault .bufferOverrun
  else
    .next (nextInput last
      { t with rbuf := t.rbuf.writeAll t.cursor.toNat d, cursor := t.cursor + BitVec.ofNat 16 d.length,
               remain := t.remain - BitVec.ofNat 16 d.length })

/-- One receive of the input phase (R151, R181): a partial receive goes on, one without progress raises. -/
def receiveInput (last : Bool) (s : State) : Out :=
  match receive s.chunkN.toNat s with
  | .fault f => .fault f
  | .waiting => .next s
  | .returned .timeout t => .next (raiseError .txn .timeoutError t)
  | .returned .ioError t => .next (raiseError .txn .shortReadError t)
  | .returned (.bytes d) t =>
    if d = [] then .next (raiseError .txn .shortReadError t) else storeInput last d t

/-- WTR (R73, R151): header and output payload in one `TX`, then the status byte, then the input payload. -/
def execWtr (r : Half) (out : List Byte) (s : State) : Out :=
  match s.seq with
  | .xCmdTx last => sendFrame .txn (frameBytes s.params (.wtr r out)) (1 + r.setWidth 17) (.xStatRx last) s
  | .xStatRx last => receiveExactly .txn 1 (checkStatus last r) s
  | .xDataRx last => receiveInput last s
  | _ => .refused (.notDue "WTR")

end Sys2Proof.Machine
end

