-- ==== Sys2Proof/Machine/Negotiator.lean ====
section
/-!
DEFINITION. The mode negotiator (41_mode_negotiator): INIT, CLOSE, and the frames ENTER_BINARY, ENTER_I2C, RESET_TERM.
-/
namespace Sys2Proof.Machine

/-- INIT (R121, R124, R125), in the phases SEQ names for it (R16). -/
def execInit (q : Operands) (s : State) : Out :=
  if s.busy = false then .next (accept 0 q .iCheck s)
  else
    match s.seq with
    | .iCheck =>
      .next { s with seq := if s.conn = .closed then .iOpen else .aDone .invalidStateError }
    | .iOpen =>
      match openTransport q.path s with
      | .fault f => .fault f
      | .waiting => .next s
      | .returned .ok t => .next { t with conn := .unknown, seq := .iConfig }
      | .returned .fail t => .next { t with seq := .aDone .openError }
    | .iConfig =>
      match configureLine s with
      | .fault f => .fault f
      | .waiting => .next s
      | .returned .ok t => .next { t with seq := .iBinTx }
      | .returned .fail t => .next { t with seq := .aRelease .configurationError }
    | .iDone => .next (complete .ok { s with strat := q.strategy, desync := false })
    | .aRelease e =>
      match releaseTransport s with
      | .fault f => .fault f
      | .waiting => .next s
      | .returned _ t => .next { t with seq := .aDone e }
    | .aDone e => .next (complete e s)
    | _ => .refused (.notDue "INIT")

/-- CLOSE (R126 to R128). -/
def execClose (q : Operands) (s : State) : Out :=
  if s.busy = false then .next (accept 1 q .cCheck s)
  else
    match s.seq with
    | .cCheck =>
      .next { s with seq := if s.conn = .closed then .cDone .invalidStateError else .cResetTx }
    | .cRelease =>
      match releaseTransport s with
      | .fault f => .fault f
      | .waiting => .next s
      | .returned _ t => .next { t with seq := .cDone .ok }
    | .cDone r => .next (complete r s)
    | _ => .refused (.notDue "CLOSE")

/-- ENTER_BINARY (R63, R122): 20 zero bytes, then exactly `"BBIO1"`. -/
def execEnterBinary (s : State) : Out :=
  match s.seq with
  | .iBinTx => sendFrame .neg (frameBytes s.params .enterBinary) 5 .iBinRx s
  | .iBinRx => receiveLiteral binaryAck (fun t => .next { t with conn := .binaryMode, seq := .iI2cTx }) s
  | _ => .refused (.notDue "ENTER_BINARY")

/-- ENTER_I2C (R64, R123): `02 48 60`, then exactly `"I2C1" 01 01`. -/
def execEnterI2c (s : State) : Out :=
  match s.seq with
  | .iI2cTx => sendFrame .neg (frameBytes s.params .enterI2c) 6 .iI2cRx s
  | .iI2cRx => receiveLiteral i2cAck (fun t => .next { t with conn := .i2cMode, seq := .iDone }) s
  | _ => .refused (.notDue "ENTER_I2C")

/-- RESET_TERM (R72, R149), in CLOSE and in INIT's abort sequence. -/
def execResetTerm (s : State) : Out :=
  match s.seq with
  | .cResetTx => sendBestEffort (frameBytes s.params .resetTerm) .cRelease s
  | .aResetTx e => sendBestEffort (frameBytes s.params .resetTerm) (.aRelease e) s
  | _ => .refused (.notDue "RESET_TERM")

end Sys2Proof.Machine
end

