-- ==== Sys2Proof/Machine/Dispatch.lean ====
section
/-!
DEFINITION. One arm per instruction.
-/
namespace Sys2Proof.Machine

def exec (i : Instr) (s : State) : Host.Outcome State Fault Refusal :=
  match i with
  | .init q => Sys2Proof.Machine.execInit q s
  | .close q => Sys2Proof.Machine.execClose q s
  | .write q => Sys2Proof.Machine.execWrite q s
  | .read q => Sys2Proof.Machine.execRead q s
  | .delay q => Sys2Proof.Machine.execDelay q s
  | .reservedOp5 q => Sys2Proof.Machine.execReservedOp5 q s
  | .reservedOp6 q => Sys2Proof.Machine.execReservedOp6 q s
  | .reservedOp7 q => Sys2Proof.Machine.execReservedOp7 q s
  | .enterBinary => Sys2Proof.Machine.execEnterBinary s
  | .enterI2c => Sys2Proof.Machine.execEnterI2c s
  | .addrSelect dev dir reg => Sys2Proof.Machine.execAddrSelect dev dir reg s
  | .reselectRead dev => Sys2Proof.Machine.execReselectRead dev s
  | .bulkHdr n => Sys2Proof.Machine.execBulkHdr n s
  | .bulkPayload data => Sys2Proof.Machine.execBulkPayload data s
  | .stop => Sys2Proof.Machine.execStop s
  | .readByte => Sys2Proof.Machine.execReadByte s
  | .endRead => Sys2Proof.Machine.execEndRead s
  | .resetTerm => Sys2Proof.Machine.execResetTerm s
  | .wtr r out => Sys2Proof.Machine.execWtr r out s

end Sys2Proof.Machine
end

