-- ==== Sys2Proof/Machine/Placing.lean ====
section
/-!
DEFINITION. Where an instruction stands for the machine to fetch it: a host operation at the port, a wire frame as the
frame in flight at its send phase. A frame is never invoked by a host (42_frame_codec, opening), so a state that fetches
one is a state in the middle of the operation that sends it (log entry 18).
-/
namespace Sys2Proof.Machine

/-- A request at the port of an idle block. -/
def placeRequest (r : Request) (s : State) : State :=
  { s with busy := false, seq := .idle, await := 0, port := some r, resetReq := none }

/-- An operation in flight, at a send phase. -/
def placePhase (conn : Conn) (strat : Strategy) (op : BitVec 3) (seq : Seq) (s : State) : State :=
  { s with conn := conn, strat := strat, op := op, seq := seq, busy := true, await := 0, resetReq := none }

/-- A combined frame of the form the block sends: an address byte alone starts the input of a READ, an address and a
register byte without input set a READ's register pointer or are a WRITE; any other payload is no frame of the block. -/
def placeWtr (r : Half) (out : List Byte) (s : State) : State :=
  match out with
  | [] => s
  | [a] =>
    placePhase .i2cMode .combined 3 (.xCmdTx true) { s with args := { s.args with devId := deviceOf a, len := r } }
  | a :: reg :: data =>
    placePhase .i2cMode .combined 2 (.xCmdTx true)
      { s with args := { s.args with devId := deviceOf a, regAddr := reg, len := BitVec.ofNat 16 data.length },
               wbuf := s.wbuf.writeAll 0 data }

/-- The state whose next instruction is `i`. -/
def placeInstr (i : Instr) (s : State) : State :=
  match i with
  | .init q => placeRequest { op := 0, args := q } s
  | .close q => placeRequest { op := 1, args := q } s
  | .write q => placeRequest { op := 2, args := q } s
  | .read q => placeRequest { op := 3, args := q } s
  | .delay q => placeRequest { op := 4, args := q } s
  | .reservedOp5 q => placeRequest { op := 5, args := q } s
  | .reservedOp6 q => placeRequest { op := 6, args := q } s
  | .reservedOp7 q => placeRequest { op := 7, args := q } s
  | .enterBinary => placePhase .unknown s.strat 0 .iBinTx s
  | .enterI2c => placePhase .binaryMode s.strat 0 .iI2cTx s
  | .addrSelect dev _ reg =>
    placePhase .i2cMode .perByte 2 .wAddrTx { s with args := { s.args with devId := dev, regAddr := reg } }
  | .reselectRead dev => placePhase .i2cMode .perByte 3 .rReselTx { s with args := { s.args with devId := dev } }
  | .bulkHdr n => placePhase .i2cMode .perByte 2 .wHdrTx { s with chunkN := n.setWidth 5 }
  | .bulkPayload data =>
    placePhase .i2cMode .perByte 2 .wPayTx
      { s with args := { s.args with len := BitVec.ofNat 16 data.length }, cursor := 0,
               chunkN := BitVec.ofNat 5 data.length, wbuf := s.wbuf.writeAll 0 data }
  | .stop => placePhase .i2cMode .perByte 2 .wStopTx s
  | .readByte => placePhase .i2cMode .perByte 3 .rByteTx s
  | .endRead => placePhase .i2cMode .perByte 3 .rEndTx s
  | .resetTerm => placePhase .i2cMode s.strat 1 .cResetTx s
  | .wtr r out => placeWtr r out s

end Sys2Proof.Machine
end

