-- ==== Sys2Proof/Machine/Step.lean ====
section
/-!
DEFINITION. One step of the machine: a reset that is due, else the instruction that is due, else nothing (10_state R16,
R17, 70_reset R230).
-/
namespace Sys2Proof.Machine

/-- One step. A machine that is idle with no request at its port stays as it is (R231 "waits for a request"). -/
def step (s : State) : Host.Outcome State Fault Refusal :=
  match s.resetReq with
  | some backlog => .next (applyReset backlog s)
  | none =>
    match fetch s with
    | none => .next s
    | some i => exec i s

/-- The state with one word of the opcode table as the next instruction (log entries 18, 19). -/
def State.withFetchWord (s : State) (nbits w : Nat) : State :=
  match decodeTableWord nbits w with
  | none => s
  | some i => placeInstr i s

end Sys2Proof.Machine
end

