-- ==== Sys2Proof/Safety.lean ====
section
/-!
DEFINITION. What a legal state is: the relation the spec's rules give between SEQ and the other registers (10_state R11,
R16, R20 to R26; 43_bridge_ops R182; 60_exceptions R200, R214). Its invariance is what makes every transport call obey the
arbiter (40_transport_arbiter R97, R98). Then the terms claims are made in: which frame may be sent when (30_encoding
R62), and the frames a whole transaction consists of (43_bridge_ops R171 to R179).
-/
namespace Sys2Proof.Machine

/-! ## Legal states -/

/-- The values CONN can have in each phase (R11, R120). -/
def connAt (q : Seq) (c : Conn) : Bool :=
  match q with
  | .iOpen | .cDone _ => c == .closed
  | .iConfig | .iBinTx | .iBinRx => c == .unknown
  | .iI2cTx | .iI2cRx => c == .binaryMode
  | .aResetTx _ | .aRelease _ => c == .unknown || c == .binaryMode
  | .idle | .iCheck | .aDone _ | .cCheck | .wCheck | .wDone _ | .rCheck | .rDone _ | .xCheck | .xDone _
  | .dWait | .dDone => c == .closed || c == .i2cMode
  | .iDone | .cResetTx | .cRelease | .wAddrTx | .wAddrRx | .wHdrTx | .wHdrRx | .wPayTx | .wPayRx | .wStopTx
  | .wStopRx | .rAddrTx | .rAddrRx | .rReselTx | .rReselRx | .rByteTx | .rByteRx | .rEndTx | .rEndRx
  | .xCmdTx _ | .xStatRx _ | .xDataRx _ | .raised _ => c == .i2cMode

/-- SEQ holds a phase of the operation in OP (R16). -/
def opAt (q : Seq) (op : BitVec 3) : Bool :=
  match q with
  | .idle => true
  | .iCheck | .iOpen | .iConfig | .iBinTx | .iBinRx | .iI2cTx | .iI2cRx | .iDone
  | .aResetTx _ | .aRelease _ | .aDone _ => op == 0
  | .cCheck | .cResetTx | .cRelease | .cDone _ => op == 1
  | .wCheck | .wAddrTx | .wAddrRx | .wHdrTx | .wHdrRx | .wPayTx | .wPayRx | .wStopTx | .wStopRx | .wDone _ => op == 2
  | .rCheck | .rAddrTx | .rAddrRx | .rReselTx | .rReselRx | .rByteTx | .rByteRx | .rEndTx | .rEndRx | .rDone _ =>
    op == 3
  | .xCheck | .xDone _ | .raised _ => op == 2 || op == 3
  | .xCmdTx last | .xStatRx last => op == 3 || (last && op == 2)
  | .xDataRx last => last && op == 3
  | .dWait | .dDone => op == 4

/-- The phases of the PerByte and of the Combined strategy run only under that strategy (R16, R77). -/
def stratAt (q : Seq) (st : Strategy) : Bool :=
  match q with
  | .wCheck | .wAddrTx | .wAddrRx | .wHdrTx | .wHdrRx | .wPayTx | .wPayRx | .wStopTx | .wStopRx | .wDone _
  | .rCheck | .rAddrTx | .rAddrRx | .rReselTx | .rReselRx | .rByteTx | .rByteRx | .rEndTx | .rEndRx | .rDone _ =>
    st == .perByte
  | .xCheck | .xCmdTx _ | .xStatRx _ | .xDataRx _ | .xDone _ => st == .combined
  | _ => true

/-- The input length of the combined frame in flight (R178, R179). -/
def inputLength (last : Bool) (s : State) : Nat :=
  if last && s.op == 3 then s.args.len.toNat else 0

/-- The acknowledgment bytes the last `TX` is still owed (R26, R99). -/
def owed (s : State) : Nat :=
  match s.seq with
  | .iBinRx => 5
  | .iI2cRx => 6
  | .wAddrRx | .rAddrRx => 4
  | .wHdrRx | .wStopRx | .rByteRx => 1
  | .wPayRx => s.chunkN.toNat
  | .rReselRx | .rEndRx => 3
  | .xStatRx last => 1 + inputLength last s
  | .xDataRx _ => s.remain.toNat
  | _ => 0

/-- The laws of CURSOR, CHUNK_N, REMAIN and LEN in each phase (R20 to R22, R182). -/
def countersOk (s : State) : Prop :=
  match s.seq with
  | .wAddrTx | .wAddrRx => s.args.len.toNat ≤ Config.maxWriteLen
  | .wHdrTx | .wHdrRx | .wPayTx | .wPayRx =>
    s.args.len.toNat ≤ Config.maxWriteLen ∧ s.cursor.toNat < s.args.len.toNat ∧
      s.chunkN = writeChunk s.cursor s.args.len
  | .wStopTx | .wStopRx => s.args.len.toNat ≤ Config.maxWriteLen ∧ s.cursor = s.args.len
  | .rByteTx | .rByteRx => s.cursor.toNat < s.args.len.toNat
  | .rEndTx | .rEndRx => s.cursor = s.args.len
  | .xCmdTx _ | .xStatRx _ => s.cursor = 0 ∧ (s.op = 2 → s.args.len.toNat ≤ Config.maxWriteLen)
  | .xDataRx _ =>
    s.remain ≠ 0 ∧ s.cursor.toNat + s.remain.toNat = s.args.len.toNat ∧ s.chunkN = inputChunk s.remain
  | _ => True

/-- The errors an exchange raises (R101). A timeout needs `RX_TIMEOUT` (R218). -/
def exchangeError (p : Params) (e : Status) : Bool :=
  e == .protocolMismatchError || (e == .timeoutError && p.rxTimeout.isSome)

/-- The results each abort or done phase can report (R200 to R208). -/
def resultAt (s : State) : Bool :=
  match s.seq with
  | .aResetTx e => exchangeError s.params e
  | .aRelease e => exchangeError s.params e || e == .configurationError
  | .aDone e => exchangeError s.params e || e == .configurationError || e == .openError || e == .invalidStateError
  | .cDone r | .rDone r => r == .ok || r == .invalidStateError
  | .wDone r => r == .ok || r == .invalidStateError || r == .payloadTooLargeError
  | .xDone r => r == .ok || r == .invalidStateError || (r == .payloadTooLargeError && s.op == 2)
  | .raised e =>
    exchangeError s.params e || e == .shortWriteError || (e == .shortReadError && s.op == 3 && s.strat == .combined)
  | _ => true

/-- A legal state. -/
structure Inv (s : State) : Prop where
  /-- `SEQ = IDLE` exactly when `BUSY = 0` (R16). -/
  busy_iff_running : s.busy = true ↔ s.seq ≠ .idle
  conn_legal : connAt s.seq s.conn = true
  op_legal : opAt s.seq s.op = true
  strat_legal : stratAt s.seq s.strat = true
  /-- `AWAIT` is what the frame in flight is owed (R26). -/
  await_owed : s.await.toNat = owed s
  counters : countersOk s
  result_legal : resultAt s = true
  /-- `DESYNC = 1` implies `CONN = I2CMode` (R214), and never holds where an INIT is about to succeed, since that INIT
  started in Closed (R121, R25). -/
  desync_open : s.desync = true → s.conn = .i2cMode ∧ s.seq ≠ .iDone
  /-- ABUF is 16 bytes (R23). -/
  abuf_fits : s.abuf.length ≤ Config.chunkR
  wbuf_wf : Memory.wf s.wbuf = true
  rbuf_wf : Memory.wf s.rbuf = true

/-! ## Which frame may be sent when (R62) -/

/-- A wire frame, as against a host operation. -/
def isFrame : Instr → Bool
  | .enterBinary | .enterI2c | .addrSelect _ _ _ | .reselectRead _ | .bulkHdr _ | .bulkPayload _ | .stop | .readByte
  | .endRead | .resetTerm | .wtr _ _ => true
  | .init _ | .close _ | .write _ | .read _ | .delay _ | .reservedOp5 _ | .reservedOp6 _ | .reservedOp7 _ => false

/-- The column "sent when `CONN` is" of the frame table (R62), with the strategy (R77). -/
def sentWhen (i : Instr) (c : Conn) (st : Strategy) : Bool :=
  match i with
  | .enterBinary => c == .unknown
  | .enterI2c => c == .binaryMode
  | .addrSelect _ _ _ | .reselectRead _ | .bulkHdr _ | .bulkPayload _ | .stop | .readByte | .endRead =>
    c == .i2cMode && st == .perByte
  | .resetTerm => c != .closed
  | .wtr _ _ => c == .i2cMode && st == .combined
  | .init _ | .close _ | .write _ | .read _ | .delay _ | .reservedOp5 _ | .reservedOp6 _ | .reservedOp7 _ => true

/-! ## Whole transactions -/

/-- A payload cut into chunks of at most 15 bytes, in order (R48); `fuel` bounds the number of chunks. -/
def chunksOf : Nat → List Byte → List (List Byte)
  | 0, _ => []
  | fuel + 1, data =>
    if data = [] then [] else data.take Config.chunkW :: chunksOf fuel (data.drop Config.chunkW)

/-- The bulk-write frame of a chunk: the header, then the payload (R145). -/
def bulkFrames (p : Params) (chunk : List Byte) : List (List Byte) :=
  [frameBytes p (.bulkHdr (BitVec.ofNat 4 chunk.length)), frameBytes p (.bulkPayload chunk)]

/-- The frames of a PerByte WRITE, in order (R171). -/
def writeFrames (p : Params) (q : Operands) (wbuf : Memory) : List (List Byte) :=
  let data := wbuf.readAll 0 q.len.toNat
  frameBytes p (addrSelectOf q) ::
    ((chunksOf data.length data).flatMap (bulkFrames p) ++ [frameBytes p .stop])

/-- The frames of a PerByte READ, in order (R173). -/
def readFrames (p : Params) (q : Operands) : List (List Byte) :=
  frameBytes p (addrSelectOf q) :: frameBytes p (.reselectRead q.devId) ::
    (List.replicate q.len.toNat (frameBytes p .readByte) ++ [frameBytes p .endRead])

/-- The two transport calls of a validated exchange (R100). -/
def exchangeCalls (frame ack : List Byte) : List Call :=
  [.tx frame (.count frame.length), .rx ack.length (.bytes ack)]

/-- The environment answers every `TX` of `frames` with its full length and the `RX` that follows with the bytes of
`acks`, and the receive stream holds no stale byte (R239). -/
structure AnswersWell (frames acks : List (List Byte)) (moreS : List TxAnswer) (moreR : List RxAnswer) (l : Link) :
    Prop where
  sends : l.sends = frames.map (fun f => TxAnswer.count f.length) ++ moreS
  recvs : l.recvs = acks.map (fun a => RxAnswer.mk a (.count a.length)) ++ moreR
  rx    : l.rx = []

/-- An idle block with a request at its port and no reset due. -/
structure ReadyFor (r : Request) (s : State) : Prop where
  idle    : s.busy = false
  settled : s.await = 0
  port    : s.port = some r
  noReset : s.resetReq = none

/-- `new` is buffer `old` with the bytes of `d` stored from index `i` on, as reads see it (R42, R47 item 3): where `old` has
the canonical form, byte `k` of `d` is read at `i + k`, and every index outside them reads as before. -/
def Stored (old new : Memory) (i : Nat) (d : List Byte) : Prop :=
  Memory.wf old = true →
    (∀ k b, d[k]? = some b → new.read (i + k) = b) ∧
      (∀ j, (j < i ∨ i + d.length ≤ j) → new.read j = old.read j)

/-! ## One exchange, as the environment meets it -/

/-- Send phase `ph` with its permission (R93, R97) and the environment's answer `a`. -/
structure ReadyToSend (ph : Seq) (a : TxAnswer) (rest : List TxAnswer) (s : State) : Prop where
  phase  : s.seq = ph
  held   : s.conn ≠ .closed
  free   : s.await = 0
  answer : s.link.sends = a :: rest

/-- Receive phase `ph` of `RX(k)` with its permission (R94, R98) and the environment's answer `a`. -/
structure ReadyToReceive (ph : Seq) (k : Nat) (a : RxAnswer) (rest : List RxAnswer) (s : State) : Prop where
  phase  : s.seq = ph
  held   : s.conn ≠ .closed
  owed   : k ≤ s.await.toNat
  answer : s.link.recvs = a :: rest

/-- The link after a `TX` of `bytes` with result `r`. -/
def linkSent (bytes : List Byte) (r : TxResult) (rest : List TxAnswer) (s : State) : Link :=
  { s.link with sends := rest, wire := s.link.wire ++ [.tx bytes r] }

/-- The link after an `RX(n)` with result `r` that left `left` in the receive stream. -/
def linkReceived (n : Nat) (r : RxResult) (left : List Byte) (rest : List RxAnswer) (s : State) : Link :=
  { s.link with recvs := rest, rx := left, wire := s.link.wire ++ [.rx n r] }

/-- In phase `ph` frame `i` sends its bytes as one `TX`; a full count moves on to `rxPh` with `k` bytes owed (R100). -/
def SendsWhole (i : Instr) (ph rxPh : Seq) (k : BitVec 17) : Prop :=
  ∀ (s : State) (a : TxAnswer) (rest : List TxAnswer), ReadyToSend ph a rest s →
    boundTx (frameBytes s.params i).length a = .count (frameBytes s.params i).length →
      exec i s = .next
        { s with await := k, seq := rxPh,
                 link := linkSent (frameBytes s.params i) (.count (frameBytes s.params i).length) rest s }

/-- In phase `ph` a wrong count of the `TX` of frame `i` raises `e`, in abort phase `abort e`; nothing is received
(R100, R101). -/
def ShortSendRaises (i : Instr) (ph : Seq) (e : Status) (abort : Status → Seq) : Prop :=
  ∀ (s : State) (a : TxAnswer) (rest : List TxAnswer), ReadyToSend ph a rest s →
    boundTx (frameBytes s.params i).length a ≠ .count (frameBytes s.params i).length →
      exec i s = .next
        { s with await := 0, seq := abort e,
                 link := linkSent (frameBytes s.params i) (boundTx (frameBytes s.params i).length a) rest s }

/-- The state after an `RX(k)` that returned the first `c` bytes of the stream, with nothing owed. -/
def afterBytes (k c : Nat) (a : RxAnswer) (rest : List RxAnswer) (s : State) : State :=
  let stream := s.link.rx ++ a.arriving
  { s with abuf := stream.take c, await := 0,
           link := linkReceived k (.bytes (stream.take c)) (stream.drop c) rest s }

/-- The state after an `RX(k)` that returned an error, with nothing owed. -/
def afterNoBytes (k : Nat) (r : RxResult) (a : RxAnswer) (rest : List RxAnswer) (s : State) : State :=
  { s with await := 0, link := linkReceived k r (s.link.rx ++ a.arriving) rest s }

/-- In phase `ph` of frame `i` an `RX(k)` that returns `k` bytes leads to `go` (R100). -/
def AckLeadsTo (i : Instr) (ph : Seq) (k : Nat) (go : State → Out) : Prop :=
  ∀ (s : State) (a : RxAnswer) (rest : List RxAnswer) (c : Nat), ReadyToReceive ph k a rest s →
    a.result = .count c → k ≤ c → k ≤ (s.link.rx ++ a.arriving).length →
      exec i s = go (afterBytes k k a rest s)

/-- In phase `ph` of frame `i` any other return of `RX(k)` raises (R100, R101): a short acknowledgment and an I/O error
`ProtocolMismatchError`, a timeout `TimeoutError`. -/
def BadAckRaises (i : Instr) (ph : Seq) (k : Nat) (abort : Status → Seq) : Prop :=
  ∀ (s : State) (a : RxAnswer) (rest : List RxAnswer), ReadyToReceive ph k a rest s →
    (∀ c, a.result = .count c → min c (s.link.rx ++ a.arriving).length < k →
      exec i s = .next { afterBytes k (min c k) a rest s with seq := abort .protocolMismatchError }) ∧
    (a.result = .ioError →
      exec i s = .next { afterNoBytes k .ioError a rest s with seq := abort .protocolMismatchError }) ∧
    (a.result = .timeout → s.params.rxTimeout ≠ none →
      exec i s = .next { afterNoBytes k .timeout a rest s with seq := abort .timeoutError })

/-- A frame of a WRITE or READ whose acknowledgment is `k` bytes of any content (R75): its send phase, its receive
phase, and the errors of both. -/
def Exchange (i : Instr) (txPh rxPh : Seq) (k : Nat) (after : State → State) : Prop :=
  SendsWhole i txPh rxPh (BitVec.ofNat 17 k) ∧
    ShortSendRaises i txPh .shortWriteError .raised ∧
    AckLeadsTo i rxPh k (fun u => .next (after u)) ∧
    BadAckRaises i rxPh k .raised

/-- What no wire frame touches: everything the host owns, the result registers and the latched operands. -/
structure FrameKeeps (s t : State) : Prop where
  params   : t.params = s.params
  strat    : t.strat = s.strat
  status   : t.status = s.status
  busy     : t.busy = s.busy
  desync   : t.desync = s.desync
  op       : t.op = s.op
  args     : t.args = s.args
  port     : t.port = s.port
  resetReq : t.resetReq = s.resetReq
  wbuf     : ∀ i, t.wbuf.read i = s.wbuf.read i
  opens    : t.link.opens = s.link.opens
  configs  : t.link.configs = s.link.configs

/-- What no host operation touches by itself. -/
structure OperationKeeps (s t : State) : Prop where
  params   : t.params = s.params
  resetReq : t.resetReq = s.resetReq
  remain   : t.remain = s.remain
  chunkN   : t.chunkN = s.chunkN
  abuf     : t.abuf = s.abuf
  wbuf     : ∀ i, t.wbuf.read i = s.wbuf.read i
  rbuf     : ∀ i, t.rbuf.read i = s.rbuf.read i
  rx       : t.link.rx = s.link.rx
  sends    : t.link.sends = s.link.sends
  recvs    : t.link.recvs = s.link.recvs

end Sys2Proof.Machine
end

