-- ==== Sys2Proof/Certificates/Slice0/Obligations.lean ====
section
/-!
DEFINITION. The statements about the bridge. Each docstring names the rule of spec/ it comes from.
-/

open Sys2Proof Sys2Proof.Machine

/-! ## Reset and the step -/

/-- R231: the registers whose reset value the spec gives, and no transport held. Then R10, R13, R14, R219: the numbers the
host reads, of every value of CONN, STRAT, STATUS, BUSY and DESYNC and of the operand registers; the codes are the spec's
decisions D2, D3 and D19. -/
def Obligations.ResetValues : Prop :=
  (State.reset.conn = .closed ∧ State.reset.strat = .perByte ∧ State.reset.status = .ok ∧ State.reset.busy = false ∧
    State.reset.desync = false ∧ State.reset.await = 0 ∧ State.reset.seq = .idle ∧
    hostRead State.reset .conn = 0 ∧ hostRead State.reset .strat = 0 ∧ hostRead State.reset .status = 0 ∧
    hostRead State.reset .busy = 0 ∧ hostRead State.reset .desync = 0) ∧
  (∀ s : State,
    [Conn.closed, .unknown, .binaryMode, .i2cMode].map (fun c => hostRead { s with conn := c } .conn) = [0, 1, 2, 3] ∧
    [Strategy.perByte, .combined].map (fun st => hostRead { s with strat := st } .strat) = [0, 1] ∧
    [Status.ok, .openError, .configurationError, .protocolMismatchError, .shortWriteError, .shortReadError,
        .payloadTooLargeError, .timeoutError, .invalidStateError].map (fun e => hostRead { s with status := e } .status) =
      [0, 1, 2, 3, 4, 5, 6, 7, 8] ∧
    [false, true].map (fun b => hostRead { s with busy := b } .busy) = [0, 1] ∧
    [false, true].map (fun b => hostRead { s with desync := b } .desync) = [0, 1] ∧
    hostRead s .op = s.op.toNat ∧ hostRead s .devId = s.args.devId.toNat ∧
    hostRead s .regAddr = s.args.regAddr.toNat ∧ hostRead s .len = s.args.len.toNat ∧
    hostRead s .delayMs = s.args.delayMs.toNat ∧ hostRead s .path = s.args.path)

/-- The state after reset is legal. -/
def Obligations.ResetIsLegal : Prop := Inv State.reset

/-- R230, R231, R233: a reset that is due is the whole step, whatever is in flight; the host's buffers and its request
stay, and no transport call is made. The operand and working registers, whose reset value the spec leaves unspecified,
hold the model's zero (log entry 6); that the waiting request stays is log entry 10, and that a TX the reset cuts has sent
nothing is log entry 31. -/
def Obligations.ResetCutsEverything : Prop :=
  ∀ (s : State) (backlog : List Byte), s.resetReq = some backlog →
    step s = .next
      { params := s.params, conn := .closed, strat := .perByte, status := .ok, busy := false, desync := false,
        await := 0, seq := .idle, op := 0, args := Operands.zero, cursor := 0, remain := 0, chunkN := 0, abuf := [],
        port := s.port, resetReq := none, wbuf := s.wbuf, rbuf := s.rbuf, link := { s.link with rx := backlog } }

/-- R16, R103: with no reset due, a step executes the instruction SEQ calls for; when idle, the request at the port; and
an idle block without a request waits. -/
def Obligations.StepRunsTheDueInstruction : Prop :=
  (∀ (s : State) (i : Instr), s.resetReq = none → s.busy = true → phaseInstr s = some i → step s = exec i s) ∧
    (∀ (s : State) (r : Request), s.resetReq = none → s.busy = false → s.port = some r →
      step s = exec (decodeRequest r) s) ∧
    (∀ s : State, s.resetReq = none → s.busy = false → s.port = none → step s = .next s)

/-! ## Encodings -/

/-- R62 to R72: a few words, written out bit by bit, and what they decode to. -/
def Obligations.SpecWordsDecode : Prop :=
  decodeFrame Params.default .binary [0b00000010#8, 0b01001000#8, 0b01100000#8] = .ok (.enterI2c, []) ∧
    decodeFrame Params.default .perByte [0b00000010#8, 0b00010010#8, 0b11101110#8, 0b11110100#8] =
      .ok (.addrSelect 0x77#7 .write 0xF4#8, []) ∧
    decodeFrame Params.default .perByte [0b00000010#8, 0b00010001#8, 0b11101111#8] = .ok (.reselectRead 0x77#7, []) ∧
    decodeFrame Params.default .perByte [0b00011111#8] = .ok (.bulkHdr 15#4, []) ∧
    decodeFrame Params.default .perByte [0b00000100#8, 0b00000111#8, 0b00000011#8] = .ok (.endRead, []) ∧
    decodeRequest { op := 0b011#3, args := Operands.zero } = .read Operands.zero

/-- R45: the address byte is the device address shifted left by one with the direction in bit 0, and the shift loses
nothing. -/
def Obligations.AddressByteLosesNothing : Prop :=
  ∀ (dev : BitVec 7) (dir : Direction),
    (addressByte dev dir).toNat = 2 * dev.toNat + (if dir = .read then 1 else 0) ∧
      deviceOf (addressByte dev dir) = dev ∧ directionOf (addressByte dev dir) = dir

/-- R67, R74, R47: the bulk-write byte is `0x10` plus the length, and a 16-bit length is its high byte, then its low
byte. -/
def Obligations.LengthFieldsAreExact : Prop :=
  (∀ n : BitVec 4, (bulkCommand n).toNat = 16 + n.toNat) ∧
    (∀ v : Half, ∃ hi lo, lengthBytes v = [hi, lo] ∧ v.toNat = 256 * hi.toNat + lo.toNat ∧ halfOf hi lo = v)

/-- Every well-formed instruction of every family decodes from its encoding to itself, for every value of the OPEN
parameters; and a frame is cut from the front of whatever follows it. -/
def Obligations.EncodeThenDecode : Prop :=
  (∀ (p : Params) (i : Instr), i.wellFormed = true → decode p i.mode (encode p i) = .ok i) ∧
    (∀ (p : Params) (i : Instr) (rest : List Byte), i.wellFormed = true → isFrame i = true →
      decodeFrame p i.mode (frameBytes p i ++ rest) = .ok (i, rest))

/-- R60: decoding a request and encoding it again gives the request, reserved codes included. -/
def Obligations.DecodeThenEncodeRequest : Prop :=
  ∀ (p : Params) (r : Request), encode p (decodeRequest r) = .request r

/-- R77: in the PerByte strategy a byte that begins no frame is refused by name. -/
def Obligations.UnknownFirstByteIsNoFrame : Prop :=
  ∀ (p : Params) (b : Byte) (rest : List Byte),
    b ≠ 0x00#8 → b ≠ 0x02#8 → b ≠ 0x03#8 → b ≠ 0x04#8 → (b.toNat < 0x10 ∨ 0x20 ≤ b.toNat) →
      decodeFrame p .perByte (b :: rest) = .error (.unknownCommand b)

/-! ## Rules of the whole machine -/

/-- Every step from a legal state leads to a legal state: SEQ, BUSY, CONN, OP, STRAT, AWAIT, the counters, DESYNC, ABUF
and the canonical form of both buffers fit together (R11, R16, R20 to R26, R182, R214). -/
def Obligations.StepKeepsLegal : Prop :=
  ∀ s t : State, Inv s → step s = .next t → Inv t

/-- From a legal state no step breaks a precondition of the transport port or of a buffer, and the only request without a
meaning is one with a reserved operation code (R77, R91, R93, R94, R97, R98). -/
def Obligations.LegalNeverStopsButForReserved : Prop :=
  ∀ s : State, Inv s →
    (∀ f, step s ≠ .fault f) ∧
      (∀ r, step s = .refused r →
        s.busy = false ∧ ∃ q, s.port = some q ∧ 5 ≤ q.op.toNat ∧ r = .reservedOperation q.op)

/-- R11: the edges of CONN, and what is true when each is taken. The last two clauses are the inference the rule itself
marks as derived from R124 and R125. -/
def Obligations.ConnMovesOnlyAlongEdges : Prop :=
  ∀ s t : State, Inv s → step s = .next t →
    (t.conn = s.conn ∨
      (s.conn = .closed ∧ t.conn = .unknown ∧ s.op = 0 ∧ s.seq = .iOpen ∧ s.link.opens.head? = some .ok) ∨
      (s.conn = .unknown ∧ t.conn = .binaryMode ∧ s.op = 0 ∧ s.seq = .iBinRx ∧
        t.abuf = [0x42#8, 0x42#8, 0x49#8, 0x4F#8, 0x31#8]) ∨
      (s.conn = .binaryMode ∧ t.conn = .i2cMode ∧ s.op = 0 ∧ s.seq = .iI2cRx ∧
        t.abuf = [0x49#8, 0x32#8, 0x43#8, 0x31#8, 0x01#8, 0x01#8]) ∨
      ((s.conn = .unknown ∨ s.conn = .binaryMode) ∧ t.conn = .closed ∧ s.op = 0 ∧ ∃ e, s.seq = .aRelease e) ∨
      (s.conn = .i2cMode ∧ t.conn = .closed ∧ s.op = 1 ∧ s.seq = .cRelease) ∨
      (t.conn = .closed ∧ s.resetReq ≠ none)) ∧
    ((s.conn = .unknown ∨ s.conn = .binaryMode) → s.busy = true ∧ s.op = 0) ∧
    (s.busy = false → s.conn = .closed ∨ s.conn = .i2cMode)

/-- R62, R77: the frame in flight is one the block emits, in the CONN state and the strategy its row names. -/
def Obligations.FramesInFlightAreLegal : Prop :=
  ∀ (s : State) (i : Instr), Inv s → s.busy = true → phaseInstr s = some i → isFrame i = true →
    i.wellFormed = true ∧ sentWhen i s.conn s.strat = true

/-- R97: whatever a step sends is the frame in flight, and nothing was owed. -/
def Obligations.SendsOnlyWhenNothingIsOwed : Prop :=
  ∀ (s t : State) (bytes : List Byte) (r : TxResult), s.resetReq = none → step s = .next t →
    t.link.wire = s.link.wire ++ [.tx bytes r] →
      s.await = 0 ∧ s.conn ≠ .closed ∧ bytes ≠ [] ∧ ∃ i, fetch s = some i ∧ bytes = frameBytes s.params i

/-- R98: a receive request is at most what is owed, and it is all of it but in a combined frame, which asks for 1 byte
and then for `min(16, REMAIN)`. -/
def Obligations.ReceivesOnlyWhatIsOwed : Prop :=
  ∀ (s t : State) (n : Nat) (r : RxResult), Inv s → s.resetReq = none → step s = .next t →
    t.link.wire = s.link.wire ++ [.rx n r] →
      0 < s.await.toNat ∧ n ≤ s.await.toNat ∧
        match s.seq with
        | .xStatRx _ => n = 1
        | .xDataRx _ => n = min 16 s.remain.toNat
        | _ => n = s.await.toNat

/-- R99: AWAIT after a whole send is the frame's acknowledgment length, after a receive it is less by the bytes received
unless the operation raised, and after a raise or a completion it is 0. -/
def Obligations.AwaitFollowsTheWire : Prop :=
  ∀ s t : State, Inv s → s.resetReq = none → step s = .next t →
    (∀ bytes, t.link.wire = s.link.wire ++ [.tx bytes (.count bytes.length)] → t.await.toNat = owed t) ∧
      (∀ n a, t.link.wire = s.link.wire ++ [.rx n (.bytes a)] →
        t.await.toNat = s.await.toNat - a.length ∨
          (t.await = 0 ∧ ∃ e, t.seq = .raised e ∨ t.seq = .aResetTx e)) ∧
      ((∃ e, t.seq = .raised e ∨ t.seq = .aResetTx e) → t.await = 0) ∧
      (t.busy = false → t.await = 0)

/-- R54, R90: a step makes at most one transport call, and never unmakes one. -/
def Obligations.WireGrowsByAtMostOneCall : Prop :=
  ∀ s t : State, step s = .next t → t.link.wire = s.link.wire ∨ ∃ c, t.link.wire = s.link.wire ++ [c]

/-- R43, R30: but for a reset, the receive stream only gains bytes at its end and loses at its head what a receive
returned, which is then in ABUF. -/
def Obligations.ReceiveTakesOldestFirst : Prop :=
  ∀ s t : State, s.resetReq = none → step s = .next t →
    ∃ arriving got, s.link.rx ++ arriving = got ++ t.link.rx ∧
      (got = [] ∨
        ∃ n, t.link.wire = s.link.wire ++ [.rx n (.bytes got)] ∧ got.length ≤ n ∧ t.abuf = got)

/-- R14, R104: STATUS changes only in the step that clears BUSY, and that step leaves SEQ idle and nothing owed. -/
def Obligations.StatusIsWrittenAtCompletion : Prop :=
  ∀ s t : State, s.resetReq = none → step s = .next t →
    (t.status ≠ s.status → s.busy = true ∧ t.busy = false) ∧
      (s.busy = true → t.busy = false → t.seq = .idle ∧ t.await = 0)

/-- R18, R57, R103: while an operation is in flight its latched operands, the host's write buffer and the request that
waits at the port stay as they are; the OPEN parameters never change. That no step changes the write buffer is the model's
choice (log entry 9), and so is that the waiting request outlives a reset (log entry 10). -/
def Obligations.OperandsStayLatched : Prop :=
  ∀ s t : State, step s = .next t →
    t.params = s.params ∧ t.wbuf = s.wbuf ∧ (s.busy = true → t.port = s.port) ∧
      (s.busy = true → s.resetReq = none → t.op = s.op ∧ t.args = s.args)

/-- R13: STRAT changes only at a reset or when an INIT succeeds, and then to that INIT's operand. -/
def Obligations.StrategyChangesOnlyAtInit : Prop :=
  ∀ s t : State, Inv s → step s = .next t → t.strat ≠ s.strat →
    s.resetReq ≠ none ∨
      (s.op = 0 ∧ s.seq = .iDone ∧ t.strat = s.args.strategy ∧ t.status = .ok ∧ t.busy = false ∧ t.conn = .i2cMode)

/-- R25, R214: DESYNC is set exactly by a raise in a WRITE or READ, and cleared only on the way to Closed. The last clause,
DESYNC 1 implies CONN I2CMode, is the inference R214 itself marks as derived. -/
def Obligations.DesyncIsSticky : Prop :=
  ∀ s t : State, Inv s → step s = .next t →
    (s.desync = false → t.desync = true → (s.op = 2 ∨ s.op = 3) ∧ ∃ e, s.seq = .raised e ∧ t.status = e) ∧
      (s.resetReq = none → ∀ e, s.seq = .raised e → t.desync = true) ∧
      (s.desync = true → t.desync = false → t.conn = .closed) ∧
      (t.desync = true → t.conn = .i2cMode)

/-- R200: the results each operation can end with. -/
def Obligations.ResultsByOperation : Prop :=
  ∀ s t : State, Inv s → s.resetReq = none → s.busy = true → step s = .next t → t.busy = false →
    (s.op = 0 → t.status ∈ [.ok, .openError, .configurationError, .protocolMismatchError, .timeoutError,
      .invalidStateError]) ∧
    (s.op = 1 → t.status ∈ [.ok, .invalidStateError]) ∧
    (s.op = 2 → t.status ∈ [.ok, .protocolMismatchError, .shortWriteError, .payloadTooLargeError, .timeoutError,
      .invalidStateError]) ∧
    (s.op = 3 → t.status ∈ [.ok, .protocolMismatchError, .shortWriteError, .shortReadError, .timeoutError,
      .invalidStateError]) ∧
    (s.op = 4 → t.status = .ok)

/-- R42: a byte of RBUF changes only in a READ, at an index from CURSOR on that the same step moves CURSOR past, and
below LEN. -/
def Obligations.ReadStoresAtTheCursor : Prop :=
  ∀ (s t : State) (i : Nat), Inv s → step s = .next t → t.rbuf.read i ≠ s.rbuf.read i →
    s.op = 3 ∧ s.cursor.toNat ≤ i ∧ i < t.cursor.toNat ∧ t.cursor.toNat ≤ s.args.len.toNat

/-- R207, R218: without `RX_TIMEOUT` no operation ends with `TimeoutError`. -/
def Obligations.NoTimeoutErrorWithoutTimeout : Prop :=
  ∀ s t : State, Inv s → s.params.rxTimeout = none → s.status ≠ .timeoutError → step s = .next t →
    t.params.rxTimeout = none ∧ t.status ≠ .timeoutError

/-- R17, R241: an `RX` that is owed bytes and gets no answer leaves the whole state as it is. -/
def Obligations.UnansweredReceiveHangs : Prop :=
  ∀ s : State, Inv s → s.resetReq = none → owed s ≠ 0 → s.link.recvs = [] → step s = .next s

/-! ## Host operations, phase by phase -/

/-- R103, R16: acceptance is one step that latches the request, sets BUSY and starts the operation's first phase. -/
def Obligations.AcceptanceLatchesTheRequest : Prop :=
  ∀ (q : Operands) (s : State), s.busy = false →
    exec (.init q) s = .next { s with op := 0, args := q, busy := true, seq := .iCheck, port := none } ∧
    exec (.close q) s = .next { s with op := 1, args := q, busy := true, seq := .cCheck, port := none } ∧
    exec (.write q) s =
      .next { s with op := 2, args := q, busy := true, port := none,
                     seq := if s.strat = .combined then .xCheck else .wCheck } ∧
    exec (.read q) s =
      .next { s with op := 3, args := q, busy := true, port := none,
                     seq := if s.strat = .combined then .xCheck else .rCheck } ∧
    exec (.delay q) s = .next { s with op := 4, args := q, busy := true, seq := .dWait, port := none }

/-- R77: a reserved operation code is refused. -/
def Obligations.ReservedCodesAreRefused : Prop :=
  ∀ (q : Operands) (s : State),
    exec (.reservedOp5 q) s = .refused (.reservedOperation 5) ∧
    exec (.reservedOp6 q) s = .refused (.reservedOperation 6) ∧
    exec (.reservedOp7 q) s = .refused (.reservedOperation 7)

/-- R121, R124, R91, R92, R220: INIT up to its first frame: the state check, `open`, `configure` with 115200 baud, 8 data
bits, no parity, 1 stop bit and no hardware flow control, and their failures. -/
def Obligations.InitOpensAndConfigures : Prop :=
  ∀ (q : Operands) (s : State), s.busy = true →
    (s.seq = .iCheck → s.conn ≠ .closed → exec (.init q) s = .next { s with seq := .aDone .invalidStateError }) ∧
    (s.seq = .iCheck → s.conn = .closed → exec (.init q) s = .next { s with seq := .iOpen }) ∧
    (∀ rest, s.seq = .iOpen → s.conn = .closed → s.link.opens = .ok :: rest →
      exec (.init q) s = .next
        { s with conn := .unknown, seq := .iConfig,
                 link := { s.link with opens := rest, wire := s.link.wire ++ [.openPath q.path .ok] } }) ∧
    (∀ rest, s.seq = .iOpen → s.conn = .closed → s.link.opens = .fail :: rest →
      exec (.init q) s = .next
        { s with seq := .aDone .openError,
                 link := { s.link with opens := rest, wire := s.link.wire ++ [.openPath q.path .fail] } }) ∧
    (∀ rest, s.seq = .iConfig → s.conn ≠ .closed → s.link.configs = .ok :: rest →
      exec (.init q) s = .next
        { s with seq := .iBinTx,
                 link := { s.link with
                   configs := rest,
                   wire := s.link.wire ++ [.configure
                     { baud := 115200, dataBits := 8, parity := false, stopBits := 1, hwFlow := false } .ok] } }) ∧
    (∀ rest, s.seq = .iConfig → s.conn ≠ .closed → s.link.configs = .fail :: rest →
      exec (.init q) s = .next
        { s with seq := .aRelease .configurationError,
                 link := { s.link with
                   configs := rest,
                   wire := s.link.wire ++ [.configure
                     { baud := 115200, dataBits := 8, parity := false, stopBits := 1, hwFlow := false } .fail] } })

/-- R124, R125: how INIT ends: with its strategy latched and DESYNC 0 on success, released and Closed on a failure. -/
def Obligations.InitEnds : Prop :=
  ∀ (q : Operands) (s : State), s.busy = true →
    (s.seq = .iDone →
      exec (.init q) s = .next
        { s with strat := q.strategy, desync := false, status := .ok, await := 0, busy := false, seq := .idle }) ∧
    (∀ e, s.seq = .aRelease e → s.conn ≠ .closed →
      exec (.init q) s = .next
        { s with conn := .closed, desync := false, seq := .aDone e,
                 link := { s.link with wire := s.link.wire ++ [.release] } }) ∧
    (∀ e, s.seq = .aDone e →
      exec (.init q) s = .next { s with status := e, await := 0, busy := false, seq := .idle })

/-- R126, R127: CLOSE, but for its frame. -/
def Obligations.CloseChecksReleasesCompletes : Prop :=
  ∀ (q : Operands) (s : State), s.busy = true →
    (s.seq = .cCheck → s.conn = .closed → exec (.close q) s = .next { s with seq := .cDone .invalidStateError }) ∧
    (s.seq = .cCheck → s.conn ≠ .closed → exec (.close q) s = .next { s with seq := .cResetTx }) ∧
    (s.seq = .cRelease → s.conn ≠ .closed →
      exec (.close q) s = .next
        { s with conn := .closed, desync := false, seq := .cDone .ok,
                 link := { s.link with wire := s.link.wire ++ [.release] } }) ∧
    (∀ r, s.seq = .cDone r →
      exec (.close q) s = .next { s with status := r, await := 0, busy := false, seq := .idle })

/-- R170: the checks of WRITE and READ, in order, in both strategies; nothing else changes. -/
def Obligations.TransactionChecks : Prop :=
  ∀ (q : Operands) (s : State), s.busy = true →
    (s.conn ≠ .i2cMode →
      (s.seq = .wCheck → exec (.write q) s = .next { s with seq := .wDone .invalidStateError }) ∧
      (s.seq = .xCheck → exec (.write q) s = .next { s with seq := .xDone .invalidStateError }) ∧
      (s.seq = .rCheck → exec (.read q) s = .next { s with seq := .rDone .invalidStateError }) ∧
      (s.seq = .xCheck → exec (.read q) s = .next { s with seq := .xDone .invalidStateError })) ∧
    (s.conn = .i2cMode →
      (s.seq = .wCheck → 126 < q.len.toNat →
        exec (.write q) s = .next { s with seq := .wDone .payloadTooLargeError }) ∧
      (s.seq = .xCheck → 126 < q.len.toNat →
        exec (.write q) s = .next { s with seq := .xDone .payloadTooLargeError }) ∧
      (s.seq = .wCheck → q.len.toNat ≤ 126 → exec (.write q) s = .next { s with seq := .wAddrTx }) ∧
      (s.seq = .xCheck → q.len.toNat ≤ 126 →
        exec (.write q) s = .next { s with cursor := 0, seq := .xCmdTx true }) ∧
      (s.seq = .rCheck → exec (.read q) s = .next { s with seq := .rAddrTx }) ∧
      (s.seq = .xCheck → exec (.read q) s = .next { s with cursor := 0, seq := .xCmdTx false }))

/-- R104, R186, R213, R214: how WRITE and READ end: the result in STATUS, and after a raise DESYNC 1 with CONN kept. -/
def Obligations.TransactionEnds : Prop :=
  ∀ (q : Operands) (s : State) (r : Status), s.busy = true →
    (s.seq = .wDone r ∨ s.seq = .xDone r →
      exec (.write q) s = .next { s with status := r, await := 0, busy := false, seq := .idle }) ∧
    (s.seq = .rDone r ∨ s.seq = .xDone r →
      exec (.read q) s = .next { s with status := r, await := 0, busy := false, seq := .idle }) ∧
    (s.seq = .raised r →
      exec (.write q) s =
        .next { s with desync := true, status := r, await := 0, busy := false, seq := .idle } ∧
      exec (.read q) s =
        .next { s with desync := true, status := r, await := 0, busy := false, seq := .idle })

/-- R185: DELAY has no effect but on BUSY and STATUS. -/
def Obligations.DelayOnlyCompletes : Prop :=
  ∀ (q : Operands) (s : State), s.busy = true →
    (s.seq = .dWait → exec (.delay q) s = .next { s with seq := .dDone }) ∧
    (s.seq = .dDone → exec (.delay q) s = .next { s with status := .ok, await := 0, busy := false, seq := .idle })

/-- The frame of the host operations: what INIT, CLOSE, WRITE, READ and DELAY leave alone in every phase, and which of
them may touch CONN, STRAT, DESYNC, the cursor, the operands and the environment's answers. -/
def Obligations.HostOperationsFrame : Prop :=
  ∀ (q : Operands) (s t : State),
    (exec (.init q) s = .next t → OperationKeeps s t ∧ t.cursor = s.cursor) ∧
    (exec (.close q) s = .next t →
      OperationKeeps s t ∧ t.cursor = s.cursor ∧ t.strat = s.strat ∧ t.link.opens = s.link.opens ∧
        t.link.configs = s.link.configs) ∧
    (exec (.write q) s = .next t ∨ exec (.read q) s = .next t →
      OperationKeeps s t ∧ t.conn = s.conn ∧ t.strat = s.strat ∧ t.link = s.link ∧
        (t.cursor = s.cursor ∨ (s.seq = .xCheck ∧ t.cursor = 0)) ∧
        (t.desync = s.desync ∨ ∃ e, s.seq = .raised e ∧ t.desync = true)) ∧
    (exec (.delay q) s = .next t →
      OperationKeeps s t ∧ t.cursor = s.cursor ∧ t.conn = s.conn ∧ t.strat = s.strat ∧ t.desync = s.desync ∧
        t.link = s.link) ∧
    (exec (.init q) s = .next t ∨ exec (.close q) s = .next t ∨ exec (.write q) s = .next t ∨
        exec (.read q) s = .next t ∨ exec (.delay q) s = .next t →
      s.busy = true → t.op = s.op ∧ t.args = s.args ∧ t.port = s.port)

/-! ## Wire frames -/

/-- R122: the binary-mode handshake. -/
def Obligations.BinaryHandshake : Prop :=
  (∀ p, frameBytes p .enterBinary = List.replicate 20 0x00#8) ∧
    SendsWhole .enterBinary .iBinTx .iBinRx 5 ∧
    ShortSendRaises .enterBinary .iBinTx .protocolMismatchError .aResetTx ∧
    AckLeadsTo .enterBinary .iBinRx 5 (fun u =>
      if u.abuf = [0x42#8, 0x42#8, 0x49#8, 0x4F#8, 0x31#8] then .next { u with conn := .binaryMode, seq := .iI2cTx }
      else .next { u with seq := .aResetTx .protocolMismatchError }) ∧
    BadAckRaises .enterBinary .iBinRx 5 .aResetTx

/-- R123: the I2C-mode handshake. -/
def Obligations.I2cHandshake : Prop :=
  (∀ p, frameBytes p .enterI2c = [0x02#8, 0x48#8, 0x60#8]) ∧
    SendsWhole .enterI2c .iI2cTx .iI2cRx 6 ∧
    ShortSendRaises .enterI2c .iI2cTx .protocolMismatchError .aResetTx ∧
    AckLeadsTo .enterI2c .iI2cRx 6 (fun u =>
      if u.abuf = [0x49#8, 0x32#8, 0x43#8, 0x31#8, 0x01#8, 0x01#8] then .next { u with conn := .i2cMode, seq := .iDone }
      else .next { u with seq := .aResetTx .protocolMismatchError }) ∧
    BadAckRaises .enterI2c .iI2cRx 6 .aResetTx

/-- R128, R149, R217: RESET_TERM is sent once, whatever the count, and nothing is received. -/
def Obligations.ResetTermIsBestEffort : Prop :=
  (∀ p, frameBytes p .resetTerm = [0x00#8, 0x0F#8]) ∧
    (∀ (s : State) (a : TxAnswer) (rest : List TxAnswer), ReadyToSend .cResetTx a rest s →
      exec .resetTerm s = .next
        { s with seq := .cRelease, link := linkSent [0x00#8, 0x0F#8] (boundTx 2 a) rest s }) ∧
    (∀ (s : State) (e : Status) (a : TxAnswer) (rest : List TxAnswer), ReadyToSend (.aResetTx e) a rest s →
      exec .resetTerm s = .next
        { s with seq := .aRelease e, link := linkSent [0x00#8, 0x0F#8] (boundTx 2 a) rest s })

/-- R141, R171, R173: ADDR_SELECT, in a WRITE and in a READ. After it a WRITE starts its data phase with CURSOR 0: a
chunk of at most 15 bytes, or the stop frame when there is nothing to write. -/
def Obligations.AddrSelectExchange : Prop :=
  ∀ (dev : BitVec 7) (reg : Byte),
    (∀ p, frameBytes p (.addrSelect dev .write reg) = [0x02#8, p.addrSelectTag, dev.setWidth 8 <<< 1, reg]) ∧
    Exchange (.addrSelect dev .write reg) .wAddrTx .wAddrRx 4 (fun u =>
      if u.args.len = 0 then { u with cursor := 0, seq := .wStopTx }
      else { u with cursor := 0, chunkN := BitVec.ofNat 5 (min 15 u.args.len.toNat), seq := .wHdrTx }) ∧
    Exchange (.addrSelect dev .write reg) .rAddrTx .rAddrRx 4 (fun u => { u with seq := .rReselTx })

/-- R142, R173: RESELECT_READ; after it the data phase starts with CURSOR 0. -/
def Obligations.ReselectReadExchange : Prop :=
  ∀ dev : BitVec 7,
    (∀ p, frameBytes p (.reselectRead dev) = [0x02#8, p.reselectTag, dev.setWidth 8 <<< 1 ||| 1#8]) ∧
    Exchange (.reselectRead dev) .rReselTx .rReselRx 3 (fun u =>
      { u with cursor := 0, seq := if u.args.len = 0 then .rEndTx else .rByteTx })

/-- R143: BULK_HDR. The operand of R143 is 1 to 15; that BULK_HDR 0, which the block never emits, behaves alike is the
model's choice (log entry 28). -/
def Obligations.BulkHeaderExchange : Prop :=
  ∀ n : BitVec 4,
    (∀ p, frameBytes p (.bulkHdr n) = [0x10#8 ||| (n.setWidth 8 &&& 0x0F#8)]) ∧
    Exchange (.bulkHdr n) .wHdrTx .wHdrRx 1 (fun u => { u with seq := .wPayTx })

/-- R144, R171: BULK_PAYLOAD. Its send needs its bytes below LEN; its acknowledgment is as long as itself; then CURSOR
is past the chunk, and the next chunk or the stop frame follows. -/
def Obligations.BulkPayloadExchange : Prop :=
  ∀ data : List Byte, 1 ≤ data.length → data.length ≤ 15 →
    (∀ (s : State) (a : TxAnswer) (rest : List TxAnswer), ReadyToSend .wPayTx a rest s →
      s.cursor.toNat + data.length ≤ s.args.len.toNat →
        (boundTx data.length a = .count data.length →
          exec (.bulkPayload data) s = .next
            { s with await := BitVec.ofNat 17 data.length, seq := .wPayRx,
                     link := linkSent data (.count data.length) rest s }) ∧
        (boundTx data.length a ≠ .count data.length →
          exec (.bulkPayload data) s = .next
            { s with await := 0, seq := .raised .shortWriteError,
                     link := linkSent data (boundTx data.length a) rest s })) ∧
    AckLeadsTo (.bulkPayload data) .wPayRx data.length (fun u =>
      let next := u.cursor + BitVec.ofNat 16 data.length
      if next.toNat < u.args.len.toNat then
        .next { u with cursor := next, seq := .wHdrTx,
                       chunkN := BitVec.ofNat 5 (min 15 (u.args.len.toNat - next.toNat)) }
      else .next { u with cursor := next, seq := .wStopTx }) ∧
    BadAckRaises (.bulkPayload data) .wPayRx data.length .raised

/-- R146: STOP. -/
def Obligations.StopExchange : Prop :=
  (∀ p, frameBytes p .stop = [0x03#8]) ∧
    Exchange .stop .wStopTx .wStopRx 1 (fun u => { u with seq := .wDone .ok })

/-- R147, R173: READ_BYTE. The acknowledgment byte is stored at CURSOR, and CURSOR advances by 1. In a buffer of canonical
form the byte is read back there, and every other byte is as before. -/
def Obligations.ReadByteExchange : Prop :=
  (∀ p, frameBytes p .readByte = [0x04#8, 0x06#8]) ∧
    SendsWhole .readByte .rByteTx .rByteRx 1 ∧
    ShortSendRaises .readByte .rByteTx .shortWriteError .raised ∧
    BadAckRaises .readByte .rByteRx 1 .raised ∧
    (∀ (s : State) (a : RxAnswer) (rest : List RxAnswer) (c : Nat) (b : Byte) (left : List Byte),
      ReadyToReceive .rByteRx 1 a rest s → a.result = .count c → 1 ≤ c → s.link.rx ++ a.arriving = b :: left →
      s.cursor.toNat < s.args.len.toNat →
        exec .readByte s = .next
          { s with abuf := [b], await := 0, rbuf := s.rbuf.write s.cursor.toNat b, cursor := s.cursor + 1,
                   seq := if s.cursor.toNat + 1 < s.args.len.toNat then .rByteTx else .rEndTx,
                   link := linkReceived 1 (.bytes [b]) left rest s } ∧
        Stored s.rbuf (s.rbuf.write s.cursor.toNat b) s.cursor.toNat [b])

/-- R148: END_READ. -/
def Obligations.EndReadExchange : Prop :=
  (∀ p, frameBytes p .endRead = [0x04#8, 0x07#8, 0x03#8]) ∧
    Exchange .endRead .rEndTx .rEndRx 3 (fun u => { u with seq := .rDone .ok })

/-- R73, R151: WTR's send and its status byte: header and payload are one `TX`; zero raises, non-zero starts the input
phase, or ends the frame when no input was asked for. An output payload above 128 bytes, which the block never sends (R151,
R180), is sent alike by the model's choice (log entry 28). The error of a zero status byte is the spec's decision D18. -/
def Obligations.WtrSendsAndChecksStatus : Prop :=
  ∀ (r : Half) (out : List Byte) (last : Bool),
    (∀ p, ∃ wh wl rh rl : Byte, frameBytes p (.wtr r out) = [p.wtrCmd, wh, wl, rh, rl] ++ out ∧
      (out.length < 65536 → out.length = 256 * wh.toNat + wl.toNat) ∧ r.toNat = 256 * rh.toNat + rl.toNat) ∧
    SendsWhole (.wtr r out) (.xCmdTx last) (.xStatRx last) (BitVec.ofNat 17 (1 + r.toNat)) ∧
    ShortSendRaises (.wtr r out) (.xCmdTx last) .shortWriteError .raised ∧
    BadAckRaises (.wtr r out) (.xStatRx last) 1 .raised ∧
    (∀ (s : State) (a : RxAnswer) (rest : List RxAnswer) (c : Nat) (b : Byte) (left : List Byte),
      ReadyToReceive (.xStatRx last) 1 a rest s → a.result = .count c → 1 ≤ c →
      s.link.rx ++ a.arriving = b :: left →
        (b = 0 → exec (.wtr r out) s = .next
          { s with abuf := [b], await := 0, seq := .raised .protocolMismatchError,
                   link := linkReceived 1 (.bytes [b]) left rest s }) ∧
        (b ≠ 0 → r = 0 → exec (.wtr r out) s = .next
          { s with abuf := [b], await := s.await - 1, remain := 0,
                   seq := if last then .xDone .ok else .xCmdTx true,
                   link := linkReceived 1 (.bytes [b]) left rest s }) ∧
        (b ≠ 0 → r ≠ 0 → exec (.wtr r out) s = .next
          { s with abuf := [b], await := s.await - 1, remain := r, chunkN := BitVec.ofNat 5 (min 16 r.toNat),
                   seq := .xDataRx last, link := linkReceived 1 (.bytes [b]) left rest s }))

/-- R151, R181: WTR's input phase: at least one byte is stored and the phase goes on, or ends when nothing remains; no
byte, or an I/O error, raises `ShortReadError`; a timeout raises `TimeoutError`. In a buffer of canonical form the stored
bytes are read back in order from CURSOR on, and every other byte is as before. -/
def Obligations.WtrInputMakesProgress : Prop :=
  ∀ (r : Half) (out : List Byte) (last : Bool) (s : State) (a : RxAnswer) (rest : List RxAnswer),
    ReadyToReceive (.xDataRx last) s.chunkN.toNat a rest s → 1 ≤ s.chunkN.toNat → s.chunkN.toNat ≤ 16 →
    (∀ (c : Nat) (d left : List Byte), a.result = .count c → d.length = min c s.chunkN.toNat → d ≠ [] →
      s.link.rx ++ a.arriving = d ++ left → s.cursor.toNat + d.length ≤ s.args.len.toNat →
      d.length ≤ s.remain.toNat →
        exec (.wtr r out) s = .next
          (let u :=
            { s with abuf := d, await := s.await - BitVec.ofNat 17 d.length,
                     rbuf := s.rbuf.writeAll s.cursor.toNat d, cursor := s.cursor + BitVec.ofNat 16 d.length,
                     remain := BitVec.ofNat 16 (s.remain.toNat - d.length),
                     link := linkReceived s.chunkN.toNat (.bytes d) left rest s }
          if u.remain = 0 then { u with seq := if last then .xDone .ok else .xCmdTx true }
          else { u with chunkN := BitVec.ofNat 5 (min 16 u.remain.toNat), seq := .xDataRx last }) ∧
        Stored s.rbuf (s.rbuf.writeAll s.cursor.toNat d) s.cursor.toNat d) ∧
    (∀ c, a.result = .count c → min c (s.link.rx ++ a.arriving).length = 0 →
      exec (.wtr r out) s = .next
        { afterBytes s.chunkN.toNat 0 a rest s with seq := .raised .shortReadError }) ∧
    (a.result = .ioError →
      exec (.wtr r out) s = .next
        { afterNoBytes s.chunkN.toNat .ioError a rest s with seq := .raised .shortReadError }) ∧
    (a.result = .timeout → s.params.rxTimeout ≠ none →
      exec (.wtr r out) s = .next
        { afterNoBytes s.chunkN.toNat .timeout a rest s with seq := .raised .timeoutError })

/-- The frame of the wire frames that store nothing: ENTER_BINARY, ENTER_I2C, ADDR_SELECT, RESELECT_READ, BULK_HDR,
BULK_PAYLOAD, STOP, END_READ and RESET_TERM leave both buffers and all the host's side alone, and touch CONN, the
cursor, the chunk size and ABUF only as named. -/
def Obligations.NonStoringFramesFrame : Prop :=
  ∀ (s t : State) (dev : BitVec 7) (dir : Direction) (reg : Byte) (n : BitVec 4) (data : List Byte),
    (exec .enterBinary s = .next t →
      FrameKeeps s t ∧ (∀ i, t.rbuf.read i = s.rbuf.read i) ∧ t.remain = s.remain ∧ t.cursor = s.cursor ∧
        t.chunkN = s.chunkN ∧ (t.conn = s.conn ∨ (s.seq = .iBinRx ∧ t.conn = .binaryMode))) ∧
    (exec .enterI2c s = .next t →
      FrameKeeps s t ∧ (∀ i, t.rbuf.read i = s.rbuf.read i) ∧ t.remain = s.remain ∧ t.cursor = s.cursor ∧
        t.chunkN = s.chunkN ∧ (t.conn = s.conn ∨ (s.seq = .iI2cRx ∧ t.conn = .i2cMode))) ∧
    (exec (.bulkHdr n) s = .next t ∨ exec .stop s = .next t ∨ exec .endRead s = .next t →
      FrameKeeps s t ∧ (∀ i, t.rbuf.read i = s.rbuf.read i) ∧ t.remain = s.remain ∧ t.conn = s.conn ∧
        t.cursor = s.cursor ∧ t.chunkN = s.chunkN) ∧
    (exec (.reselectRead dev) s = .next t →
      FrameKeeps s t ∧ (∀ i, t.rbuf.read i = s.rbuf.read i) ∧ t.remain = s.remain ∧ t.conn = s.conn ∧
        t.chunkN = s.chunkN ∧ (t.cursor = s.cursor ∨ (s.seq = .rReselRx ∧ t.cursor = 0))) ∧
    (exec (.addrSelect dev dir reg) s = .next t ∨ exec (.bulkPayload data) s = .next t →
      FrameKeeps s t ∧ (∀ i, t.rbuf.read i = s.rbuf.read i) ∧ t.remain = s.remain ∧ t.conn = s.conn ∧
        (s.seq ≠ .wAddrRx → s.seq ≠ .wPayRx → t.cursor = s.cursor ∧ t.chunkN = s.chunkN)) ∧
    (exec .resetTerm s = .next t →
      FrameKeeps s t ∧ (∀ i, t.rbuf.read i = s.rbuf.read i) ∧ t.remain = s.remain ∧ t.conn = s.conn ∧
        t.cursor = s.cursor ∧ t.chunkN = s.chunkN ∧ t.abuf = s.abuf ∧ t.await = s.await ∧
        t.link.rx = s.link.rx ∧ t.link.recvs = s.link.recvs)

/-- The frame of READ_BYTE: it stores one byte, at CURSOR, and only in its receive phase. -/
def Obligations.ReadByteFrame : Prop :=
  ∀ s t : State, exec .readByte s = .next t →
    FrameKeeps s t ∧ t.conn = s.conn ∧ t.remain = s.remain ∧ t.chunkN = s.chunkN ∧
      (∀ i, i ≠ s.cursor.toNat → t.rbuf.read i = s.rbuf.read i) ∧
      (s.seq ≠ .rByteRx → t.cursor = s.cursor ∧ ∀ i, t.rbuf.read i = s.rbuf.read i) ∧
      (t.cursor = s.cursor → ∀ i, t.rbuf.read i = s.rbuf.read i)

/-- The frame of WTR: it stores the bytes a receive of its input phase returned (they are then in ABUF), from CURSOR on,
and nothing anywhere else or in its other phases. -/
def Obligations.WtrFrame : Prop :=
  ∀ (r : Half) (out : List Byte) (s t : State), exec (.wtr r out) s = .next t →
    FrameKeeps s t ∧ t.conn = s.conn ∧
      ((∀ last, s.seq ≠ .xDataRx last) → t.cursor = s.cursor ∧ ∀ i, t.rbuf.read i = s.rbuf.read i) ∧
      (∀ i, (i < s.cursor.toNat ∨ s.cursor.toNat + t.abuf.length ≤ i) → t.rbuf.read i = s.rbuf.read i) ∧
      (t.cursor = s.cursor → ∀ i, t.rbuf.read i = s.rbuf.read i)

/-! ## Whole operations -/

/-- R185: a DELAY on an idle block, in every CONN state, is three steps that make no transport call and leave everything
but the latched operands and STATUS as it was. The three steps are log entry 1, that the wait takes no time log entry 17,
and that the working registers keep their values at completion log entry 29: the model's choices. -/
def Obligations.DelayRuns : Prop :=
  ∀ (q : Operands) (s : State), ReadyFor { op := 4, args := q } s → s.seq = .idle →
    Host.Core.run Sys2Proof.core 3 s = .next { s with op := 4, args := q, port := none, status := .ok }

/-- R126, R127, R128: a CLOSE. When Closed it is an error and sends nothing; otherwise it sends `00 0F`, whatever the
count, releases the transport, and ends Closed with DESYNC 0 and `Ok`. The number of steps is log entries 1 and 12, and
that the working registers keep their values at completion log entry 29: the model's choices. -/
def Obligations.CloseRuns : Prop :=
  ∀ (q : Operands) (s : State), ReadyFor { op := 1, args := q } s → s.seq = .idle →
    (s.conn = .closed →
      Host.Core.run Sys2Proof.core 3 s =
        .next { s with op := 1, args := q, port := none, status := .invalidStateError }) ∧
    (∀ a rest, s.conn = .i2cMode → s.link.sends = a :: rest →
      Host.Core.run Sys2Proof.core 5 s =
        .next { s with op := 1, args := q, port := none, status := .ok, conn := .closed, desync := false,
                       link := { s.link with
                         sends := rest,
                         wire := s.link.wire ++ [.tx [0x00#8, 0x0F#8] (boundTx 2 a), .release] } })

/-- R124 and source property S6: an INIT on a Closed block whose calls all succeed and whose acknowledgments are the two
literals ends in I2CMode with the request's strategy, after exactly the calls of the rule. -/
def Obligations.InitRuns : Prop :=
  ∀ (q : Operands) (s : State) (moreO moreC : List ControlAnswer) (moreS : List TxAnswer) (moreR : List RxAnswer),
    ReadyFor { op := 0, args := q } s → s.conn = .closed → s.link.opens = .ok :: moreO →
    s.link.configs = .ok :: moreC →
    AnswersWell [frameBytes s.params .enterBinary, frameBytes s.params .enterI2c]
      [[0x42#8, 0x42#8, 0x49#8, 0x4F#8, 0x31#8], [0x49#8, 0x32#8, 0x43#8, 0x31#8, 0x01#8, 0x01#8]] moreS moreR s.link →
      ∃ t, Host.Core.run Sys2Proof.core 9 s = .next t ∧ t.conn = .i2cMode ∧ t.strat = q.strategy ∧ t.status = .ok ∧
        t.busy = false ∧ t.desync = false ∧
        t.link.wire = s.link.wire ++
          ([.openPath q.path .ok,
              .configure { baud := 115200, dataBits := 8, parity := false, stopBits := 1, hwFlow := false } .ok] ++
            exchangeCalls (List.replicate 20 0x00#8) [0x42#8, 0x42#8, 0x49#8, 0x4F#8, 0x31#8] ++
            exchangeCalls [0x02#8, 0x48#8, 0x60#8] [0x49#8, 0x32#8, 0x43#8, 0x31#8, 0x01#8, 0x01#8])

/-- R125, R213 and source property S6: once a handshake has failed with `e`, INIT sends `00 0F` whatever the count,
releases the transport and ends Closed, never left open, with `e` in STATUS. The three steps are log entries 1 and 12, and
that the working registers keep their values at completion log entry 29: the model's choices. -/
def Obligations.FailedNegotiationCloses : Prop :=
  ∀ (s : State) (e : Status) (a : TxAnswer) (rest : List TxAnswer),
    s.resetReq = none → s.busy = true → ReadyToSend (.aResetTx e) a rest s →
      Host.Core.run Sys2Proof.core 3 s =
        .next { s with conn := .closed, desync := false, status := e, busy := false, seq := .idle,
                       link := { s.link with
                         sends := rest,
                         wire := s.link.wire ++ [.tx [0x00#8, 0x0F#8] (boundTx 2 a), .release] } }

/-- R170, R206, R219 and source property S4: a WRITE longer than 126 bytes, and a WRITE or READ on a Closed block, make
no transport call and change nothing but the latched operands and STATUS. The three steps are log entries 1 and 12, and
that the working registers keep their values at completion log entry 29: the model's choices. -/
def Obligations.RefusedTransactionsSendNothing : Prop :=
  ∀ (q : Operands) (s : State), s.seq = .idle →
    (ReadyFor { op := 2, args := q } s → s.conn = .i2cMode → 126 < q.len.toNat →
      Host.Core.run Sys2Proof.core 3 s =
        .next { s with op := 2, args := q, port := none, status := .payloadTooLargeError }) ∧
    (ReadyFor { op := 2, args := q } s → s.conn = .closed →
      Host.Core.run Sys2Proof.core 3 s =
        .next { s with op := 2, args := q, port := none, status := .invalidStateError }) ∧
    (ReadyFor { op := 3, args := q } s → s.conn = .closed →
      Host.Core.run Sys2Proof.core 3 s =
        .next { s with op := 3, args := q, port := none, status := .invalidStateError })

/-- R171, R172, R175 and source property S3: a PerByte WRITE of at most 126 bytes whose every send and acknowledgment has
the right count sends exactly ADDR_SELECT, one header and payload per chunk of at most 15 bytes, and STOP, each followed
by its acknowledgment of any content, and ends with `Ok`; DESYNC gates nothing and stays. The chunks are 15 bytes each but
the last, and byte `k` of the payloads sent is byte `k` of WBUF (R41, R47, R48). -/
def Obligations.PerByteWriteRuns : Prop :=
  ∀ (q : Operands) (s : State) (acks : List (List Byte)) (moreS : List TxAnswer) (moreR : List RxAnswer),
    ReadyFor { op := 2, args := q } s → s.conn = .i2cMode → s.strat = .perByte → q.len.toNat ≤ 126 →
    acks.map List.length = (writeFrames s.params q s.wbuf).map List.length →
    AnswersWell (writeFrames s.params q s.wbuf) acks moreS moreR s.link →
      (writeFrames s.params q s.wbuf).length = 2 + 2 * ((q.len.toNat + 14) / 15) ∧
      (writeFrames s.params q s.wbuf).flatten.length = 4 + (q.len.toNat + 14) / 15 + q.len.toNat + 1 ∧
      (∃ chunks : List (List Byte),
        writeFrames s.params q s.wbuf =
          [0x02#8, s.params.addrSelectTag, q.devId.setWidth 8 <<< 1, q.regAddr] ::
            (chunks.flatMap (fun chunk => [[BitVec.ofNat 8 (0x10 + chunk.length)], chunk]) ++ [[0x03#8]]) ∧
        (∀ chunk ∈ chunks, 1 ≤ chunk.length ∧ chunk.length ≤ 15) ∧
        (∀ chunk ∈ chunks.dropLast, chunk.length = 15) ∧
        chunks.flatten.length = q.len.toNat ∧
        ∀ k < q.len.toNat, chunks.flatten[k]? = some (s.wbuf.read k)) ∧
      ∃ t, Host.Core.run Sys2Proof.core (3 + 2 * (writeFrames s.params q s.wbuf).length) s = .next t ∧
        t.status = .ok ∧ t.busy = false ∧ t.conn = .i2cMode ∧ t.desync = s.desync ∧ t.rbuf = s.rbuf ∧
        t.link.wire = s.link.wire ++ (List.zipWith exchangeCalls (writeFrames s.params q s.wbuf) acks).flatten

/-- R173, R174, R175 and source property S5: a PerByte READ of any length whose every send and acknowledgment has the
right count sends exactly ADDR_SELECT, RESELECT_READ, one READ_BYTE per byte and END_READ, and ends with `Ok` and the
bytes supplied, in order, in RBUF: in a buffer of canonical form byte `k` is read back at index `k`, and every byte past
them is as before. The bytes of RESELECT_READ are the spec's decision D9 (log entry 24). -/
def Obligations.PerByteReadRuns : Prop :=
  ∀ (q : Operands) (s : State) (ack1 ack2 ackEnd data : List Byte) (moreS : List TxAnswer) (moreR : List RxAnswer),
    ReadyFor { op := 3, args := q } s → s.conn = .i2cMode → s.strat = .perByte →
    ack1.length = 4 → ack2.length = 3 → ackEnd.length = 3 → data.length = q.len.toNat →
    AnswersWell (readFrames s.params q) (ack1 :: ack2 :: (data.map (fun b => [b]) ++ [ackEnd])) moreS moreR s.link →
      (readFrames s.params q).length = 3 + q.len.toNat ∧
      (readFrames s.params q).flatten.length = 4 + 3 + 2 * q.len.toNat + 3 ∧
      ∃ t, Host.Core.run Sys2Proof.core (3 + 2 * (readFrames s.params q).length) s = .next t ∧
        t.status = .ok ∧ t.busy = false ∧ t.conn = .i2cMode ∧ t.desync = s.desync ∧ t.rbuf = s.rbuf.writeAll 0 data ∧
        Stored s.rbuf t.rbuf 0 data ∧
        t.link.wire = s.link.wire ++
          (List.zipWith exchangeCalls (readFrames s.params q)
            (ack1 :: ack2 :: (data.map (fun b => [b]) ++ [ackEnd]))).flatten

/-- R178: a Combined WRITE of at most 126 bytes is one frame that carries the whole payload; a non-zero status byte ends
it with `Ok`, a zero one with `ProtocolMismatchError` and DESYNC 1. Byte `k` of the payload is byte `k` of WBUF (R41, R47).
The form of the frame and the error of a zero status byte are the spec's decision D18, which it marks as inferred. -/
def Obligations.CombinedWriteRuns : Prop :=
  ∀ (q : Operands) (s : State) (st : Byte) (moreS : List TxAnswer) (moreR : List RxAnswer),
    ReadyFor { op := 2, args := q } s → s.conn = .i2cMode → s.strat = .combined → q.len.toNat ≤ 126 →
    AnswersWell [frameBytes s.params (wtrOfWrite q s.wbuf)] [[st]] moreS moreR s.link →
      (∃ (wh wl : Byte) (payload : List Byte),
        frameBytes s.params (wtrOfWrite q s.wbuf) =
          [s.params.wtrCmd, wh, wl, 0x00#8, 0x00#8, q.devId.setWidth 8 <<< 1, q.regAddr] ++ payload ∧
        256 * wh.toNat + wl.toNat = q.len.toNat + 2 ∧ payload.length = q.len.toNat ∧
        ∀ k < q.len.toNat, payload[k]? = some (s.wbuf.read k)) ∧
      ∃ t, Host.Core.run Sys2Proof.core 5 s = .next t ∧ t.busy = false ∧ t.conn = .i2cMode ∧
        (st ≠ 0 → t.status = .ok ∧ t.desync = s.desync) ∧
        (st = 0 → t.status = .protocolMismatchError ∧ t.desync = true) ∧
        t.link.wire = s.link.wire ++ exchangeCalls (frameBytes s.params (wtrOfWrite q s.wbuf)) [st]

/-- R179, R181: a Combined READ is two frames; its input may arrive in any parts of 1 to 16 bytes; it ends with `Ok` and
the bytes supplied, in order, in RBUF: in a buffer of canonical form byte `k` is read back at index `k`, and every byte past
them is as before. The two frames are the spec's decision D18, which it marks as inferred. -/
def Obligations.CombinedReadRuns : Prop :=
  ∀ (q : Operands) (s : State) (st1 st2 : Byte) (parts : List (List Byte)) (moreS : List TxAnswer)
    (moreR : List RxAnswer),
    ReadyFor { op := 3, args := q } s → s.conn = .i2cMode → s.strat = .combined → st1 ≠ 0 → st2 ≠ 0 →
    (∀ part ∈ parts, 1 ≤ part.length ∧ part.length ≤ 16) → parts.flatten.length = q.len.toNat →
    AnswersWell [frameBytes s.params (wtrOfReadPointer q), frameBytes s.params (wtrOfReadData q)]
      ([st1] :: [st2] :: parts) moreS moreR s.link →
      ∃ t, Host.Core.run Sys2Proof.core (7 + parts.length) s = .next t ∧ t.status = .ok ∧ t.busy = false ∧
        t.conn = .i2cMode ∧ t.desync = s.desync ∧ t.rbuf = s.rbuf.writeAll 0 parts.flatten ∧
        Stored s.rbuf t.rbuf 0 parts.flatten ∧
        t.txStream = s.txStream ++ frameBytes s.params (wtrOfReadPointer q) ++ frameBytes s.params (wtrOfReadData q)
end

