-- ==== Sys2Proof/Laws/Memory.lean ====
section
/-!
SUPPORT. The laws of the host buffers: a read after a write, and that every write keeps the canonical form.
-/
namespace Sys2Proof.Machine

theorem Memory.wfFrom_weaken {lo lo' : Nat} (m : Memory) (hle : lo' ≤ lo) (h : Memory.wfFrom lo m = true) :
    Memory.wfFrom lo' m = true := by
  cases m with
  | nil => rfl
  | cons c rest =>
    simp only [Memory.wfFrom, Bool.and_eq_true, decide_eq_true_eq] at h ⊢
    exact ⟨⟨hle.trans h.1.1, h.1.2⟩, h.2⟩

/-- Below the first index a canonical buffer lists nothing. -/
theorem Memory.read_below {lo : Nat} (m : Memory) (h : Memory.wfFrom lo m = true) (i : Nat) (hi : i < lo) :
    m.read i = Memory.unlisted := by
  induction m generalizing lo with
  | nil => rfl
  | cons c rest ih =>
    simp only [Memory.wfFrom, Bool.and_eq_true, decide_eq_true_eq] at h
    rw [Memory.read, if_neg (by omega)]
    exact ih h.2 (by omega)

theorem Memory.read_write_same {lo : Nat} (m : Memory) (h : Memory.wfFrom lo m = true) (i : Nat) (v : Byte) :
    (m.write i v).read i = v := by
  induction m generalizing lo with
  | nil =>
    unfold Memory.write
    split <;> simp_all [Memory.read]
  | cons c rest ih =>
    obtain ⟨a, b⟩ := c
    simp only [Memory.wfFrom, Bool.and_eq_true, decide_eq_true_eq] at h
    have unlistedAbove : i < a + 1 → Memory.read rest i = Memory.unlisted := Memory.read_below rest h.2 i
    rcases lt_trichotomy a i with hlt | rfl | hgt
    · simp [Memory.write, Memory.read, hlt, hlt.ne, ih h.2]
    · by_cases hv : v = Memory.unlisted
      · simp [Memory.write, hv, unlistedAbove]
      · simp [Memory.write, Memory.read, hv]
    · have hne : a ≠ i := hgt.ne'
      by_cases hv : v = Memory.unlisted
      · simp [Memory.write, Memory.read, hv, hgt.not_gt, hne, unlistedAbove (by omega)]
      · simp [Memory.write, Memory.read, hv, hgt.not_gt]

theorem Memory.read_write_other (m : Memory) (i j : Nat) (v : Byte) (hne : j ≠ i) :
    (m.write i v).read j = m.read j := by
  induction m with
  | nil => by_cases hv : v = Memory.unlisted <;> simp [Memory.write, Memory.read, hv, hne.symm]
  | cons c rest ih =>
    obtain ⟨a, b⟩ := c
    by_cases hlt : a < i
    · simp [Memory.write, Memory.read, hlt, ih]
    · by_cases ha : a = i
      · subst ha
        by_cases hv : v = Memory.unlisted <;> simp [Memory.write, Memory.read, hv, hne.symm]
      · by_cases hv : v = Memory.unlisted <;> simp [Memory.write, Memory.read, hlt, ha, hv, hne.symm]

theorem Memory.write_wfFrom {lo : Nat} (m : Memory) (h : Memory.wfFrom lo m = true) (i : Nat) (hi : lo ≤ i) (v : Byte) :
    Memory.wfFrom lo (m.write i v) = true := by
  induction m generalizing lo with
  | nil =>
    by_cases hv : v = Memory.unlisted <;> simp [Memory.write, Memory.wfFrom, hv, hi]
  | cons c rest ih =>
    obtain ⟨a, b⟩ := c
    simp only [Memory.wfFrom, Bool.and_eq_true, decide_eq_true_eq] at h
    obtain ⟨⟨hlo, hb⟩, hrest⟩ := h
    rcases lt_trichotomy a i with hlt | rfl | hgt
    · simp [Memory.write, Memory.wfFrom, hlt, hlo, ih hrest (by omega)] at hb ⊢
      exact hb
    · by_cases hv : v = Memory.unlisted
      · simpa [Memory.write, hv] using Memory.wfFrom_weaken rest (by omega) hrest
      · simp [Memory.write, Memory.wfFrom, hv, hlo, hrest]
    · have hne : a ≠ i := hgt.ne'
      by_cases hv : v = Memory.unlisted
      · simp_all [Memory.write, Memory.wfFrom, hgt.not_gt]
      · simp_all [Memory.write, Memory.wfFrom, hgt.not_gt]

/-- Every write keeps the canonical form. -/
theorem Memory.write_wf (m : Memory) (h : Memory.wf m = true) (i : Nat) (v : Byte) : Memory.wf (m.write i v) = true :=
  Memory.write_wfFrom m h i (Nat.zero_le i) v

theorem Memory.writeAll_wf (m : Memory) (h : Memory.wf m = true) (i : Nat) (vs : List Byte) :
    Memory.wf (m.writeAll i vs) = true := by
  induction vs generalizing m i with
  | nil => exact h
  | cons v vs ih => exact ih _ (Memory.write_wf m h i v) _

/-- A run of bytes leaves every other index alone. -/
theorem Memory.read_writeAll_other (m : Memory) (i j : Nat) (vs : List Byte) (h : j < i ∨ i + vs.length ≤ j) :
    (m.writeAll i vs).read j = m.read j := by
  induction vs generalizing m i with
  | nil => rfl
  | cons v vs ih =>
    simp only [List.length_cons] at h
    rw [Memory.writeAll, ih _ _ (by omega), Memory.read_write_other _ _ _ _ (by omega)]

/-- A run of bytes is read back where it was stored. -/
theorem Memory.read_writeAll_same (m : Memory) (hm : Memory.wf m = true) (i k : Nat) (vs : List Byte)
    (h : k < vs.length) : (m.writeAll i vs).read (i + k) = vs[k] := by
  induction vs generalizing m i k with
  | nil => simp at h
  | cons v vs ih =>
    cases k with
    | zero =>
      rw [Memory.writeAll, Memory.read_writeAll_other _ _ _ _ (by omega)]
      exact Memory.read_write_same m hm i v
    | succ k =>
      have h' : k < vs.length := by simpa using h
      have := ih (m.write i v) (Memory.write_wf m hm i v) (i + 1) k h'
      rw [Memory.writeAll, show i + (k + 1) = i + 1 + k by omega, this]
      simp

@[simp] theorem Memory.readAll_length (m : Memory) (i n : Nat) : (m.readAll i n).length = n := by
  induction n generalizing i with
  | zero => rfl
  | succ n ih => simp [Memory.readAll, ih]

/-- Byte `k` of a run read from index `i` on is the byte at `i + k`. -/
theorem Memory.readAll_getElem? (m : Memory) (i n k : Nat) (h : k < n) : (m.readAll i n)[k]? = some (m.read (i + k)) := by
  induction n generalizing i k with
  | zero => omega
  | succ n ih =>
    cases k with
    | zero => rfl
    | succ k =>
      rw [Memory.readAll, List.getElem?_cons_succ, ih _ _ (by omega), show i + 1 + k = i + (k + 1) by omega]

end Sys2Proof.Machine
end

