-- ==== Sys2Proof/Laws/State.lean ====
section
/-!
SUPPORT. One lemma per field per named update of the state, so that no proof unfolds a record update.
-/
namespace Sys2Proof.Machine

/-! ## complete (R104) -/

@[simp] theorem complete_params (r : Status) (s : State) : (complete r s).params = s.params := rfl

@[simp] theorem complete_conn (r : Status) (s : State) : (complete r s).conn = s.conn := rfl

@[simp] theorem complete_strat (r : Status) (s : State) : (complete r s).strat = s.strat := rfl

@[simp] theorem complete_status (r : Status) (s : State) : (complete r s).status = r := rfl

@[simp] theorem complete_busy (r : Status) (s : State) : (complete r s).busy = false := rfl

@[simp] theorem complete_desync (r : Status) (s : State) : (complete r s).desync = s.desync := rfl

@[simp] theorem complete_await (r : Status) (s : State) : (complete r s).await = 0 := rfl

@[simp] theorem complete_seq (r : Status) (s : State) : (complete r s).seq = .idle := rfl

@[simp] theorem complete_op (r : Status) (s : State) : (complete r s).op = s.op := rfl

@[simp] theorem complete_args (r : Status) (s : State) : (complete r s).args = s.args := rfl

@[simp] theorem complete_cursor (r : Status) (s : State) : (complete r s).cursor = s.cursor := rfl

@[simp] theorem complete_remain (r : Status) (s : State) : (complete r s).remain = s.remain := rfl

@[simp] theorem complete_chunkN (r : Status) (s : State) : (complete r s).chunkN = s.chunkN := rfl

@[simp] theorem complete_abuf (r : Status) (s : State) : (complete r s).abuf = s.abuf := rfl

@[simp] theorem complete_port (r : Status) (s : State) : (complete r s).port = s.port := rfl

@[simp] theorem complete_resetReq (r : Status) (s : State) : (complete r s).resetReq = s.resetReq := rfl

@[simp] theorem complete_wbuf (r : Status) (s : State) : (complete r s).wbuf = s.wbuf := rfl

@[simp] theorem complete_rbuf (r : Status) (s : State) : (complete r s).rbuf = s.rbuf := rfl

@[simp] theorem complete_link (r : Status) (s : State) : (complete r s).link = s.link := rfl

/-! ## accept (R103) -/

@[simp] theorem accept_params (code : BitVec 3) (q : Operands) (first : Seq) (s : State) : (accept code q first s).params = s.params := rfl

@[simp] theorem accept_conn (code : BitVec 3) (q : Operands) (first : Seq) (s : State) : (accept code q first s).conn = s.conn := rfl

@[simp] theorem accept_strat (code : BitVec 3) (q : Operands) (first : Seq) (s : State) : (accept code q first s).strat = s.strat := rfl

@[simp] theorem accept_status (code : BitVec 3) (q : Operands) (first : Seq) (s : State) : (accept code q first s).status = s.status := rfl

@[simp] theorem accept_busy (code : BitVec 3) (q : Operands) (first : Seq) (s : State) : (accept code q first s).busy = true := rfl

@[simp] theorem accept_desync (code : BitVec 3) (q : Operands) (first : Seq) (s : State) : (accept code q first s).desync = s.desync := rfl

@[simp] theorem accept_await (code : BitVec 3) (q : Operands) (first : Seq) (s : State) : (accept code q first s).await = s.await := rfl

@[simp] theorem accept_seq (code : BitVec 3) (q : Operands) (first : Seq) (s : State) : (accept code q first s).seq = first := rfl

@[simp] theorem accept_op (code : BitVec 3) (q : Operands) (first : Seq) (s : State) : (accept code q first s).op = code := rfl

@[simp] theorem accept_args (code : BitVec 3) (q : Operands) (first : Seq) (s : State) : (accept code q first s).args = q := rfl

@[simp] theorem accept_cursor (code : BitVec 3) (q : Operands) (first : Seq) (s : State) : (accept code q first s).cursor = s.cursor := rfl

@[simp] theorem accept_remain (code : BitVec 3) (q : Operands) (first : Seq) (s : State) : (accept code q first s).remain = s.remain := rfl

@[simp] theorem accept_chunkN (code : BitVec 3) (q : Operands) (first : Seq) (s : State) : (accept code q first s).chunkN = s.chunkN := rfl

@[simp] theorem accept_abuf (code : BitVec 3) (q : Operands) (first : Seq) (s : State) : (accept code q first s).abuf = s.abuf := rfl

@[simp] theorem accept_port (code : BitVec 3) (q : Operands) (first : Seq) (s : State) : (accept code q first s).port = none := rfl

@[simp] theorem accept_resetReq (code : BitVec 3) (q : Operands) (first : Seq) (s : State) : (accept code q first s).resetReq = s.resetReq := rfl

@[simp] theorem accept_wbuf (code : BitVec 3) (q : Operands) (first : Seq) (s : State) : (accept code q first s).wbuf = s.wbuf := rfl

@[simp] theorem accept_rbuf (code : BitVec 3) (q : Operands) (first : Seq) (s : State) : (accept code q first s).rbuf = s.rbuf := rfl

@[simp] theorem accept_link (code : BitVec 3) (q : Operands) (first : Seq) (s : State) : (accept code q first s).link = s.link := rfl

/-! ## closeConn (R25) -/

@[simp] theorem closeConn_params  (s : State) : (closeConn s).params = s.params := rfl

@[simp] theorem closeConn_conn  (s : State) : (closeConn s).conn = .closed := rfl

@[simp] theorem closeConn_strat  (s : State) : (closeConn s).strat = s.strat := rfl

@[simp] theorem closeConn_status  (s : State) : (closeConn s).status = s.status := rfl

@[simp] theorem closeConn_busy  (s : State) : (closeConn s).busy = s.busy := rfl

@[simp] theorem closeConn_desync  (s : State) : (closeConn s).desync = false := rfl

@[simp] theorem closeConn_await  (s : State) : (closeConn s).await = s.await := rfl

@[simp] theorem closeConn_seq  (s : State) : (closeConn s).seq = s.seq := rfl

@[simp] theorem closeConn_op  (s : State) : (closeConn s).op = s.op := rfl

@[simp] theorem closeConn_args  (s : State) : (closeConn s).args = s.args := rfl

@[simp] theorem closeConn_cursor  (s : State) : (closeConn s).cursor = s.cursor := rfl

@[simp] theorem closeConn_remain  (s : State) : (closeConn s).remain = s.remain := rfl

@[simp] theorem closeConn_chunkN  (s : State) : (closeConn s).chunkN = s.chunkN := rfl

@[simp] theorem closeConn_abuf  (s : State) : (closeConn s).abuf = s.abuf := rfl

@[simp] theorem closeConn_port  (s : State) : (closeConn s).port = s.port := rfl

@[simp] theorem closeConn_resetReq  (s : State) : (closeConn s).resetReq = s.resetReq := rfl

@[simp] theorem closeConn_wbuf  (s : State) : (closeConn s).wbuf = s.wbuf := rfl

@[simp] theorem closeConn_rbuf  (s : State) : (closeConn s).rbuf = s.rbuf := rfl

@[simp] theorem closeConn_link  (s : State) : (closeConn s).link = s.link := rfl

/-! ## abortTransaction (R213, R214) -/

@[simp] theorem abortTransaction_params (e : Status) (s : State) : (abortTransaction e s).params = s.params := rfl

@[simp] theorem abortTransaction_conn (e : Status) (s : State) : (abortTransaction e s).conn = s.conn := rfl

@[simp] theorem abortTransaction_strat (e : Status) (s : State) : (abortTransaction e s).strat = s.strat := rfl

@[simp] theorem abortTransaction_status (e : Status) (s : State) : (abortTransaction e s).status = e := rfl

@[simp] theorem abortTransaction_busy (e : Status) (s : State) : (abortTransaction e s).busy = false := rfl

@[simp] theorem abortTransaction_desync (e : Status) (s : State) : (abortTransaction e s).desync = true := rfl

@[simp] theorem abortTransaction_await (e : Status) (s : State) : (abortTransaction e s).await = 0 := rfl

@[simp] theorem abortTransaction_seq (e : Status) (s : State) : (abortTransaction e s).seq = .idle := rfl

@[simp] theorem abortTransaction_op (e : Status) (s : State) : (abortTransaction e s).op = s.op := rfl

@[simp] theorem abortTransaction_args (e : Status) (s : State) : (abortTransaction e s).args = s.args := rfl

@[simp] theorem abortTransaction_cursor (e : Status) (s : State) : (abortTransaction e s).cursor = s.cursor := rfl

@[simp] theorem abortTransaction_remain (e : Status) (s : State) : (abortTransaction e s).remain = s.remain := rfl

@[simp] theorem abortTransaction_chunkN (e : Status) (s : State) : (abortTransaction e s).chunkN = s.chunkN := rfl

@[simp] theorem abortTransaction_abuf (e : Status) (s : State) : (abortTransaction e s).abuf = s.abuf := rfl

@[simp] theorem abortTransaction_port (e : Status) (s : State) : (abortTransaction e s).port = s.port := rfl

@[simp] theorem abortTransaction_resetReq (e : Status) (s : State) : (abortTransaction e s).resetReq = s.resetReq := rfl

@[simp] theorem abortTransaction_wbuf (e : Status) (s : State) : (abortTransaction e s).wbuf = s.wbuf := rfl

@[simp] theorem abortTransaction_rbuf (e : Status) (s : State) : (abortTransaction e s).rbuf = s.rbuf := rfl

@[simp] theorem abortTransaction_link (e : Status) (s : State) : (abortTransaction e s).link = s.link := rfl

/-! ## applyReset (R230 to R233) -/

@[simp] theorem applyReset_params (backlog : List Byte) (s : State) : (applyReset backlog s).params = s.params := rfl

@[simp] theorem applyReset_conn (backlog : List Byte) (s : State) : (applyReset backlog s).conn = .closed := rfl

@[simp] theorem applyReset_strat (backlog : List Byte) (s : State) : (applyReset backlog s).strat = .perByte := rfl

@[simp] theorem applyReset_status (backlog : List Byte) (s : State) : (applyReset backlog s).status = .ok := rfl

@[simp] theorem applyReset_busy (backlog : List Byte) (s : State) : (applyReset backlog s).busy = false := rfl

@[simp] theorem applyReset_desync (backlog : List Byte) (s : State) : (applyReset backlog s).desync = false := rfl

@[simp] theorem applyReset_await (backlog : List Byte) (s : State) : (applyReset backlog s).await = 0 := rfl

@[simp] theorem applyReset_seq (backlog : List Byte) (s : State) : (applyReset backlog s).seq = .idle := rfl

@[simp] theorem applyReset_op (backlog : List Byte) (s : State) : (applyReset backlog s).op = 0 := rfl

@[simp] theorem applyReset_args (backlog : List Byte) (s : State) : (applyReset backlog s).args = Operands.zero := rfl

@[simp] theorem applyReset_cursor (backlog : List Byte) (s : State) : (applyReset backlog s).cursor = 0 := rfl

@[simp] theorem applyReset_remain (backlog : List Byte) (s : State) : (applyReset backlog s).remain = 0 := rfl

@[simp] theorem applyReset_chunkN (backlog : List Byte) (s : State) : (applyReset backlog s).chunkN = 0 := rfl

@[simp] theorem applyReset_abuf (backlog : List Byte) (s : State) : (applyReset backlog s).abuf = [] := rfl

@[simp] theorem applyReset_port (backlog : List Byte) (s : State) : (applyReset backlog s).port = s.port := rfl

@[simp] theorem applyReset_resetReq (backlog : List Byte) (s : State) : (applyReset backlog s).resetReq = none := rfl

@[simp] theorem applyReset_wbuf (backlog : List Byte) (s : State) : (applyReset backlog s).wbuf = s.wbuf := rfl

@[simp] theorem applyReset_rbuf (backlog : List Byte) (s : State) : (applyReset backlog s).rbuf = s.rbuf := rfl

@[simp] theorem applyReset_link (backlog : List Byte) (s : State) : (applyReset backlog s).link = { s.link with rx := backlog } := rfl

/-! ## raiseError (R213) -/

@[simp] theorem raiseError_neg_seq (e : Status) (s : State) : (raiseError .neg e s).seq = .aResetTx e := rfl

@[simp] theorem raiseError_txn_seq (e : Status) (s : State) : (raiseError .txn e s).seq = .raised e := rfl

@[simp] theorem raiseError_params (cls : ExchangeClass) (e : Status) (s : State) :
    (raiseError cls e s).params = s.params := by cases cls <;> rfl

@[simp] theorem raiseError_conn (cls : ExchangeClass) (e : Status) (s : State) :
    (raiseError cls e s).conn = s.conn := by cases cls <;> rfl

@[simp] theorem raiseError_strat (cls : ExchangeClass) (e : Status) (s : State) :
    (raiseError cls e s).strat = s.strat := by cases cls <;> rfl

@[simp] theorem raiseError_status (cls : ExchangeClass) (e : Status) (s : State) :
    (raiseError cls e s).status = s.status := by cases cls <;> rfl

@[simp] theorem raiseError_busy (cls : ExchangeClass) (e : Status) (s : State) :
    (raiseError cls e s).busy = s.busy := by cases cls <;> rfl

@[simp] theorem raiseError_desync (cls : ExchangeClass) (e : Status) (s : State) :
    (raiseError cls e s).desync = s.desync := by cases cls <;> rfl

@[simp] theorem raiseError_await (cls : ExchangeClass) (e : Status) (s : State) :
    (raiseError cls e s).await = 0 := by cases cls <;> rfl

@[simp] theorem raiseError_op (cls : ExchangeClass) (e : Status) (s : State) :
    (raiseError cls e s).op = s.op := by cases cls <;> rfl

@[simp] theorem raiseError_args (cls : ExchangeClass) (e : Status) (s : State) :
    (raiseError cls e s).args = s.args := by cases cls <;> rfl

@[simp] theorem raiseError_cursor (cls : ExchangeClass) (e : Status) (s : State) :
    (raiseError cls e s).cursor = s.cursor := by cases cls <;> rfl

@[simp] theorem raiseError_remain (cls : ExchangeClass) (e : Status) (s : State) :
    (raiseError cls e s).remain = s.remain := by cases cls <;> rfl

@[simp] theorem raiseError_chunkN (cls : ExchangeClass) (e : Status) (s : State) :
    (raiseError cls e s).chunkN = s.chunkN := by cases cls <;> rfl

@[simp] theorem raiseError_abuf (cls : ExchangeClass) (e : Status) (s : State) :
    (raiseError cls e s).abuf = s.abuf := by cases cls <;> rfl

@[simp] theorem raiseError_port (cls : ExchangeClass) (e : Status) (s : State) :
    (raiseError cls e s).port = s.port := by cases cls <;> rfl

@[simp] theorem raiseError_resetReq (cls : ExchangeClass) (e : Status) (s : State) :
    (raiseError cls e s).resetReq = s.resetReq := by cases cls <;> rfl

@[simp] theorem raiseError_wbuf (cls : ExchangeClass) (e : Status) (s : State) :
    (raiseError cls e s).wbuf = s.wbuf := by cases cls <;> rfl

@[simp] theorem raiseError_rbuf (cls : ExchangeClass) (e : Status) (s : State) :
    (raiseError cls e s).rbuf = s.rbuf := by cases cls <;> rfl

@[simp] theorem raiseError_link (cls : ExchangeClass) (e : Status) (s : State) :
    (raiseError cls e s).link = s.link := by cases cls <;> rfl

/-! ## nextByte (R173) -/

@[simp] theorem nextByte_params (s : State) : (nextByte s).params = s.params := rfl

@[simp] theorem nextByte_conn (s : State) : (nextByte s).conn = s.conn := rfl

@[simp] theorem nextByte_strat (s : State) : (nextByte s).strat = s.strat := rfl

@[simp] theorem nextByte_status (s : State) : (nextByte s).status = s.status := rfl

@[simp] theorem nextByte_busy (s : State) : (nextByte s).busy = s.busy := rfl

@[simp] theorem nextByte_desync (s : State) : (nextByte s).desync = s.desync := rfl

@[simp] theorem nextByte_await (s : State) : (nextByte s).await = s.await := rfl

@[simp] theorem nextByte_seq (s : State) : (nextByte s).seq = if moreBytes s.cursor s.args.len then .rByteTx else .rEndTx := rfl

@[simp] theorem nextByte_op (s : State) : (nextByte s).op = s.op := rfl

@[simp] theorem nextByte_args (s : State) : (nextByte s).args = s.args := rfl

@[simp] theorem nextByte_cursor (s : State) : (nextByte s).cursor = s.cursor := rfl

@[simp] theorem nextByte_remain (s : State) : (nextByte s).remain = s.remain := rfl

@[simp] theorem nextByte_chunkN (s : State) : (nextByte s).chunkN = s.chunkN := rfl

@[simp] theorem nextByte_abuf (s : State) : (nextByte s).abuf = s.abuf := rfl

@[simp] theorem nextByte_port (s : State) : (nextByte s).port = s.port := rfl

@[simp] theorem nextByte_resetReq (s : State) : (nextByte s).resetReq = s.resetReq := rfl

@[simp] theorem nextByte_wbuf (s : State) : (nextByte s).wbuf = s.wbuf := rfl

@[simp] theorem nextByte_rbuf (s : State) : (nextByte s).rbuf = s.rbuf := rfl

@[simp] theorem nextByte_link (s : State) : (nextByte s).link = s.link := rfl

/-! ## nextChunk (R171) -/

@[simp] theorem nextChunk_params (s : State) : (nextChunk s).params = s.params := by
  unfold nextChunk; split <;> rfl

@[simp] theorem nextChunk_conn (s : State) : (nextChunk s).conn = s.conn := by
  unfold nextChunk; split <;> rfl

@[simp] theorem nextChunk_strat (s : State) : (nextChunk s).strat = s.strat := by
  unfold nextChunk; split <;> rfl

@[simp] theorem nextChunk_status (s : State) : (nextChunk s).status = s.status := by
  unfold nextChunk; split <;> rfl

@[simp] theorem nextChunk_busy (s : State) : (nextChunk s).busy = s.busy := by
  unfold nextChunk; split <;> rfl

@[simp] theorem nextChunk_desync (s : State) : (nextChunk s).desync = s.desync := by
  unfold nextChunk; split <;> rfl

@[simp] theorem nextChunk_await (s : State) : (nextChunk s).await = s.await := by
  unfold nextChunk; split <;> rfl

@[simp] theorem nextChunk_op (s : State) : (nextChunk s).op = s.op := by
  unfold nextChunk; split <;> rfl

@[simp] theorem nextChunk_args (s : State) : (nextChunk s).args = s.args := by
  unfold nextChunk; split <;> rfl

@[simp] theorem nextChunk_cursor (s : State) : (nextChunk s).cursor = s.cursor := by
  unfold nextChunk; split <;> rfl

@[simp] theorem nextChunk_remain (s : State) : (nextChunk s).remain = s.remain := by
  unfold nextChunk; split <;> rfl

@[simp] theorem nextChunk_abuf (s : State) : (nextChunk s).abuf = s.abuf := by
  unfold nextChunk; split <;> rfl

@[simp] theorem nextChunk_port (s : State) : (nextChunk s).port = s.port := by
  unfold nextChunk; split <;> rfl

@[simp] theorem nextChunk_resetReq (s : State) : (nextChunk s).resetReq = s.resetReq := by
  unfold nextChunk; split <;> rfl

@[simp] theorem nextChunk_wbuf (s : State) : (nextChunk s).wbuf = s.wbuf := by
  unfold nextChunk; split <;> rfl

@[simp] theorem nextChunk_rbuf (s : State) : (nextChunk s).rbuf = s.rbuf := by
  unfold nextChunk; split <;> rfl

@[simp] theorem nextChunk_link (s : State) : (nextChunk s).link = s.link := by
  unfold nextChunk; split <;> rfl

/-! ## nextInput (R151) -/

@[simp] theorem nextInput_params (last : Bool) (s : State) : (nextInput last s).params = s.params := by
  unfold nextInput; split <;> rfl

@[simp] theorem nextInput_conn (last : Bool) (s : State) : (nextInput last s).conn = s.conn := by
  unfold nextInput; split <;> rfl

@[simp] theorem nextInput_strat (last : Bool) (s : State) : (nextInput last s).strat = s.strat := by
  unfold nextInput; split <;> rfl

@[simp] theorem nextInput_status (last : Bool) (s : State) : (nextInput last s).status = s.status := by
  unfold nextInput; split <;> rfl

@[simp] theorem nextInput_busy (last : Bool) (s : State) : (nextInput last s).busy = s.busy := by
  unfold nextInput; split <;> rfl

@[simp] theorem nextInput_desync (last : Bool) (s : State) : (nextInput last s).desync = s.desync := by
  unfold nextInput; split <;> rfl

@[simp] theorem nextInput_await (last : Bool) (s : State) : (nextInput last s).await = s.await := by
  unfold nextInput; split <;> rfl

@[simp] theorem nextInput_op (last : Bool) (s : State) : (nextInput last s).op = s.op := by
  unfold nextInput; split <;> rfl

@[simp] theorem nextInput_args (last : Bool) (s : State) : (nextInput last s).args = s.args := by
  unfold nextInput; split <;> rfl

@[simp] theorem nextInput_cursor (last : Bool) (s : State) : (nextInput last s).cursor = s.cursor := by
  unfold nextInput; split <;> rfl

@[simp] theorem nextInput_remain (last : Bool) (s : State) : (nextInput last s).remain = s.remain := by
  unfold nextInput; split <;> rfl

@[simp] theorem nextInput_abuf (last : Bool) (s : State) : (nextInput last s).abuf = s.abuf := by
  unfold nextInput; split <;> rfl

@[simp] theorem nextInput_port (last : Bool) (s : State) : (nextInput last s).port = s.port := by
  unfold nextInput; split <;> rfl

@[simp] theorem nextInput_resetReq (last : Bool) (s : State) : (nextInput last s).resetReq = s.resetReq := by
  unfold nextInput; split <;> rfl

@[simp] theorem nextInput_wbuf (last : Bool) (s : State) : (nextInput last s).wbuf = s.wbuf := by
  unfold nextInput; split <;> rfl

@[simp] theorem nextInput_rbuf (last : Bool) (s : State) : (nextInput last s).rbuf = s.rbuf := by
  unfold nextInput; split <;> rfl

@[simp] theorem nextInput_link (last : Bool) (s : State) : (nextInput last s).link = s.link := by
  unfold nextInput; split <;> rfl

end Sys2Proof.Machine
end

