-- ==== Sys2Proof/Laws/Ops.lean ====
section
/-!
SUPPORT. What each shared operation can do, said once (40_transport_arbiter R91 to R100).
-/
namespace Sys2Proof.Machine

/-! ## Transport calls -/

/-- A `TX` that returns had its permission (R97), used one answer, and did nothing else. -/
theorem transmit_returned {bytes : List Byte} {s t : State} {r : TxResult} (h : transmit bytes s = .returned r t) :
    s.conn ≠ .closed ∧ s.await = 0 ∧ bytes ≠ [] ∧
      ∃ a rest, s.link.sends = a :: rest ∧ r = boundTx bytes.length a ∧ t = afterTx bytes r rest s := by
  unfold transmit at h
  split at h
  · cases h
  · split at h
    · cases h
    · rename_i hc hp
      push Not at hp
      split at h
      · cases h
      · rename_i a rest hs
        cases h
        exact ⟨hc, hp.1, hp.2, a, rest, hs, rfl, rfl⟩

/-- With its permission and an answer, a `TX` returns. -/
theorem transmit_of_answer {bytes : List Byte} {s : State} {a : TxAnswer} {rest : List TxAnswer}
    (hc : s.conn ≠ .closed) (ha : s.await = 0) (hb : bytes ≠ []) (hs : s.link.sends = a :: rest) :
    transmit bytes s = .returned (boundTx bytes.length a) (afterTx bytes (boundTx bytes.length a) rest s) := by
  simp [transmit, hc, ha, hb, hs]

/-- A `TX` faults only without its permission. -/
theorem transmit_fault {bytes : List Byte} {s : State} {f : Fault} (h : transmit bytes s = .fault f) :
    s.conn = .closed ∨ s.await ≠ 0 ∨ bytes = [] := by
  unfold transmit at h
  split at h
  · exact .inl ‹_›
  · split at h
    · exact .inr ‹_›
    · split at h <;> cases h

/-- An `RX` that returns had its permission (R98) and is one of three cases (R94). -/
theorem receive_returned {n : Nat} {s t : State} {r : RxResult} (h : receive n s = .returned r t) :
    s.conn ≠ .closed ∧ n ≠ 0 ∧ n ≤ Config.chunkR ∧ n ≤ s.await.toNat ∧
      ∃ a rest, s.link.recvs = a :: rest ∧
        ((∃ c, a.result = .count c ∧
            r = .bytes ((s.link.rx ++ a.arriving).take (min c n)) ∧
            t = afterRx n ((s.link.rx ++ a.arriving).take (min c n)) ((s.link.rx ++ a.arriving).drop (min c n)) rest s) ∨
          (a.result = .ioError ∧ r = .ioError ∧ t = afterRxError n .ioError (s.link.rx ++ a.arriving) rest s) ∨
          (a.result = .timeout ∧ s.params.rxTimeout ≠ none ∧ r = .timeout ∧
            t = afterRxError n .timeout (s.link.rx ++ a.arriving) rest s)) := by
  unfold receive at h
  split at h
  · cases h
  · split at h
    · cases h
    · rename_i hc hp
      push Not at hp
      refine ⟨hc, hp.1, hp.2.1, hp.2.2, ?_⟩
      split at h
      · cases h
      · rename_i a rest hr
        refine ⟨a, rest, hr, ?_⟩
        simp only at h
        split at h
        · rename_i c hc
          cases h
          exact .inl ⟨c, hc, rfl, rfl⟩
        · rename_i hc
          cases h
          exact .inr (.inl ⟨hc, rfl, rfl⟩)
        · rename_i hc
          split at h
          · cases h
          · cases h
            exact .inr (.inr ⟨hc, ‹_›, rfl, rfl⟩)

/-- With its permission and an answer of `c` bytes, an `RX` returns. -/
theorem receive_of_count {n c : Nat} {s : State} {arriving : List Byte} {rest : List RxAnswer}
    (hc : s.conn ≠ .closed) (h0 : n ≠ 0) (h16 : n ≤ Config.chunkR) (ha : n ≤ s.await.toNat)
    (hr : s.link.recvs = ⟨arriving, .count c⟩ :: rest) :
    receive n s = .returned (.bytes ((s.link.rx ++ arriving).take (min c n)))
      (afterRx n ((s.link.rx ++ arriving).take (min c n)) ((s.link.rx ++ arriving).drop (min c n)) rest s) := by
  have hp : ¬ (n = 0 ∨ Config.chunkR < n ∨ s.await.toNat < n) := by omega
  simp [receive, hc, hp, hr]

/-- An `RX` faults only without its permission. -/
theorem receive_fault {n : Nat} {s : State} {f : Fault} (h : receive n s = .fault f) :
    s.conn = .closed ∨ n = 0 ∨ Config.chunkR < n ∨ s.await.toNat < n := by
  unfold receive at h
  split at h
  · exact .inl ‹_›
  · split at h
    · exact .inr ‹_›
    · split at h
      · cases h
      · simp only at h
        split at h
        · cases h
        · cases h
        · split at h <;> cases h

/-! ## The halves of an exchange -/

/-- A send half answers a next state in three ways: waiting, sent whole, or the error of a wrong count (R100). -/
theorem sendFrame_next {cls : ExchangeClass} {bytes : List Byte} {k : BitVec 17} {ph : Seq} {s t : State}
    (h : sendFrame cls bytes k ph s = .next t) :
    t = s ∨
      (s.conn ≠ .closed ∧ s.await = 0 ∧ ∃ a rest, s.link.sends = a :: rest ∧
        ((boundTx bytes.length a = .count bytes.length ∧
            t = { afterTx bytes (.count bytes.length) rest s with await := k, seq := ph }) ∨
          (boundTx bytes.length a ≠ .count bytes.length ∧
            t = raiseError cls (sendError cls) (afterTx bytes (boundTx bytes.length a) rest s)))) := by
  unfold sendFrame at h
  split at h
  · cases h
  · cases h
    exact .inl rfl
  · rename_i r u hu
    obtain ⟨hc, ha, -, a, rest, hs, rfl, rfl⟩ := transmit_returned hu
    refine .inr ⟨hc, ha, a, rest, hs, ?_⟩
    split at h
    · rename_i hr
      cases h
      exact .inl ⟨hr, by rw [hr]⟩
    · cases h
      exact .inr ⟨‹_›, rfl⟩

/-- A send half whose `TX` is answered with the full count (R100). -/
theorem sendFrame_of_full {cls : ExchangeClass} {bytes : List Byte} {k : BitVec 17} {ph : Seq} {s : State}
    {a : TxAnswer} {rest : List TxAnswer} (hc : s.conn ≠ .closed) (hw : s.await = 0) (hb : bytes ≠ [])
    (hs : s.link.sends = a :: rest) (hf : boundTx bytes.length a = .count bytes.length) :
    sendFrame cls bytes k ph s =
      .next { afterTx bytes (.count bytes.length) rest s with await := k, seq := ph } := by
  simp [sendFrame, transmit_of_answer hc hw hb hs, hf]

/-- A send half refuses nothing. -/
theorem sendFrame_not_refused {cls : ExchangeClass} {bytes : List Byte} {k : BitVec 17} {ph : Seq} {s : State}
    {r : Refusal} : sendFrame cls bytes k ph s ≠ .refused r := by
  unfold sendFrame
  split
  · simp
  · simp
  · split <;> simp

/-- A receive half is a fault without permission, a wait, an error (R100), or `go` on the state that holds `k` bytes. -/
theorem receiveExactly_cases (cls : ExchangeClass) (k : Nat) (go : State → Out) (s : State) :
    (∃ f, receive k s = .fault f ∧ receiveExactly cls k go s = .fault f) ∨
      (receiveExactly cls k go s = .next s) ∨
      (∃ e u, (e = .timeoutError ∧ s.params.rxTimeout ≠ none ∨ e = .protocolMismatchError) ∧
        (∃ r, receive k s = .returned r u) ∧ receiveExactly cls k go s = .next (raiseError cls e u)) ∨
      (∃ a u, receive k s = .returned (.bytes a) u ∧ a.length = k ∧ u.abuf = a ∧ receiveExactly cls k go s = go u) := by
  unfold receiveExactly
  split
  · exact .inl ⟨_, ‹_›, rfl⟩
  · exact .inr (.inl rfl)
  · rename_i u hu
    refine .inr (.inr (.inl ⟨_, u, .inl ⟨rfl, ?_⟩, ⟨_, hu⟩, rfl⟩))
    obtain ⟨-, -, -, -, a, rest, -, h⟩ := receive_returned hu
    rcases h with ⟨c, -, h, -⟩ | ⟨-, h, -⟩ | ⟨-, h, -⟩
    · cases h
    · cases h
    · exact h
  · rename_i u hu
    exact .inr (.inr (.inl ⟨_, u, .inr rfl, ⟨_, hu⟩, rfl⟩))
  · rename_i a u hu
    split
    · rename_i hl
      refine .inr (.inr (.inr ⟨a, u, hu, by simpa [ackLengthOk] using hl, ?_, rfl⟩))
      obtain ⟨-, -, -, -, b, rest, -, h⟩ := receive_returned hu
      rcases h with ⟨c, -, h, rfl⟩ | ⟨-, h, -⟩ | ⟨-, -, h, -⟩
      · cases h
        rfl
      · cases h
      · cases h
    · exact .inr (.inr (.inl ⟨_, u, .inr rfl, ⟨_, hu⟩, rfl⟩))

/-- What an `RX` leaves alone. -/
theorem receive_keeps {n : Nat} {s u : State} {r : RxResult} (h : receive n s = .returned r u) :
    u.params = s.params ∧ u.conn = s.conn ∧ u.strat = s.strat ∧ u.status = s.status ∧ u.busy = s.busy ∧
      u.desync = s.desync ∧ u.seq = s.seq ∧ u.op = s.op ∧ u.args = s.args ∧ u.cursor = s.cursor ∧
      u.remain = s.remain ∧ u.chunkN = s.chunkN ∧ u.port = s.port ∧ u.resetReq = s.resetReq ∧ u.wbuf = s.wbuf ∧
      u.rbuf = s.rbuf := by
  obtain ⟨-, -, -, -, a, rest, -, h⟩ := receive_returned h
  rcases h with ⟨c, -, -, rfl⟩ | ⟨-, -, rfl⟩ | ⟨-, -, -, rfl⟩ <;>
    exact ⟨rfl, rfl, rfl, rfl, rfl, rfl, rfl, rfl, rfl, rfl, rfl, rfl, rfl, rfl, rfl, rfl⟩

end Sys2Proof.Machine
end

