-- ==== Sys2Proof/Laws/PerInstr.lean ====
section
/-!
SUPPORT. A family of facts about every instruction as syntax: the column "TX bytes" of the frame table (30_encoding R62).
-/
namespace Sys2Proof.Laws.FrameLength

open Sys2Proof.Machine

/-- How many bytes one `TX` of the frame has (R62); a host operation sends none of its own (R60). -/
def txLength : Instr → Nat
  | .enterBinary => 20
  | .enterI2c => 3
  | .addrSelect _ _ _ => 4
  | .reselectRead _ => 3
  | .bulkHdr _ => 1
  | .bulkPayload data => data.length
  | .stop => 1
  | .readByte => 2
  | .endRead => 3
  | .resetTerm => 2
  | .wtr _ out => 5 + out.length
  | .init _ | .close _ | .write _ | .read _ | .delay _ | .reservedOp5 _ | .reservedOp6 _ | .reservedOp7 _ => 0

/-- Whatever the OPEN parameters are, a frame is encoded as that many bytes and a host operation as a request. -/
def Statement (i : Instr) : Prop :=
  ∀ p : Params, (frameBytes p i).length = txLength i ∧
    ((isFrame i = true ∧ encode p i = .frame (frameBytes p i)) ∨
      (isFrame i = false ∧ ∃ r, encode p i = .request r ∧ decodeRequest r = i))

theorem init (q : Operands) : Statement (.init q) := fun _ => ⟨rfl, .inr ⟨rfl, _, rfl, rfl⟩⟩
theorem close (q : Operands) : Statement (.close q) := fun _ => ⟨rfl, .inr ⟨rfl, _, rfl, rfl⟩⟩
theorem write (q : Operands) : Statement (.write q) := fun _ => ⟨rfl, .inr ⟨rfl, _, rfl, rfl⟩⟩
theorem read (q : Operands) : Statement (.read q) := fun _ => ⟨rfl, .inr ⟨rfl, _, rfl, rfl⟩⟩
theorem delay (q : Operands) : Statement (.delay q) := fun _ => ⟨rfl, .inr ⟨rfl, _, rfl, rfl⟩⟩
theorem reservedOp5 (q : Operands) : Statement (.reservedOp5 q) := fun _ => ⟨rfl, .inr ⟨rfl, _, rfl, rfl⟩⟩
theorem reservedOp6 (q : Operands) : Statement (.reservedOp6 q) := fun _ => ⟨rfl, .inr ⟨rfl, _, rfl, rfl⟩⟩
theorem reservedOp7 (q : Operands) : Statement (.reservedOp7 q) := fun _ => ⟨rfl, .inr ⟨rfl, _, rfl, rfl⟩⟩
theorem enterBinary : Statement .enterBinary := fun _ => ⟨rfl, .inl ⟨rfl, rfl⟩⟩
theorem enterI2c : Statement .enterI2c := fun _ => ⟨rfl, .inl ⟨rfl, rfl⟩⟩
theorem addrSelect (dev : BitVec 7) (dir : Direction) (reg : Byte) : Statement (.addrSelect dev dir reg) :=
  fun _ => ⟨rfl, .inl ⟨rfl, rfl⟩⟩
theorem reselectRead (dev : BitVec 7) : Statement (.reselectRead dev) := fun _ => ⟨rfl, .inl ⟨rfl, rfl⟩⟩
theorem bulkHdr (n : BitVec 4) : Statement (.bulkHdr n) := fun _ => ⟨rfl, .inl ⟨rfl, rfl⟩⟩
theorem bulkPayload (data : List Byte) : Statement (.bulkPayload data) := fun _ => ⟨rfl, .inl ⟨rfl, rfl⟩⟩
theorem stop : Statement .stop := fun _ => ⟨rfl, .inl ⟨rfl, rfl⟩⟩
theorem readByte : Statement .readByte := fun _ => ⟨rfl, .inl ⟨rfl, rfl⟩⟩
theorem endRead : Statement .endRead := fun _ => ⟨rfl, .inl ⟨rfl, rfl⟩⟩
theorem resetTerm : Statement .resetTerm := fun _ => ⟨rfl, .inl ⟨rfl, rfl⟩⟩
theorem wtr (r : Half) (out : List Byte) : Statement (.wtr r out) :=
  fun p => ⟨by simp [frameBytes, lengthBytes, txLength]; omega, .inl ⟨rfl, rfl⟩⟩

end Sys2Proof.Laws.FrameLength
end

