-- ==== Sys2Proof/Laws/Shapes.lean ====
section
/-!
SUPPORT. What each half of an exchange and each transport call leaves behind, as an update of the state it started from
(40_transport_arbiter R91 to R101). Citing these, a claim about a step never unfolds an operation.
-/
namespace Sys2Proof.Machine

/-! ## The two calls that move bytes -/

/-- A `TX` of `bytes` that was permitted (R93, R97) returned `r` and left link `l`. -/
structure Sent (bytes : List Byte) (s : State) (r : TxResult) (l : Link) : Prop where
  held     : s.conn ≠ .closed
  free     : s.await = 0
  nonempty : bytes ≠ []
  answered : ∃ a rest, s.link.sends = a :: rest ∧ r = boundTx bytes.length a ∧ l = linkSent bytes r rest s

/-- The three ways an `RX(n)` returns (R94), with what they leave in ABUF, AWAIT and the link (R43, R99). -/
def Returns (n : Nat) (s : State) (a : RxAnswer) (rest : List RxAnswer) (r : RxResult) (ab : List Byte)
    (aw : BitVec 17) (l : Link) : Prop :=
  (∃ left, r = .bytes ab ∧ aw = s.await - BitVec.ofNat 17 ab.length ∧ ab.length ≤ n ∧
      s.link.rx ++ a.arriving = ab ++ left ∧ l = linkReceived n r left rest s) ∨
    (r = .ioError ∧ ab = s.abuf ∧ aw = s.await ∧ l = linkReceived n r (s.link.rx ++ a.arriving) rest s) ∨
    (r = .timeout ∧ s.params.rxTimeout ≠ none ∧ ab = s.abuf ∧ aw = s.await ∧
      l = linkReceived n r (s.link.rx ++ a.arriving) rest s)

/-- An `RX(n)` that was permitted (R94, R98) returned `r` and left ABUF `ab`, AWAIT `aw` and link `l`. -/
structure Received (n : Nat) (s : State) (r : RxResult) (ab : List Byte) (aw : BitVec 17) (l : Link) : Prop where
  held     : s.conn ≠ .closed
  nonzero  : n ≠ 0
  bounded  : n ≤ Config.chunkR
  owed     : n ≤ s.await.toNat
  answered : ∃ a rest, s.link.recvs = a :: rest ∧ Returns n s a rest r ab aw l

/-- A send adds itself to the history and touches nothing else of the link but the answers of `TX`. -/
theorem Sent.keeps {bytes : List Byte} {s : State} {r : TxResult} {l : Link} (h : Sent bytes s r l) :
    l.rx = s.link.rx ∧ l.opens = s.link.opens ∧ l.configs = s.link.configs ∧ l.recvs = s.link.recvs ∧
      l.wire = s.link.wire ++ [.tx bytes r] := by
  obtain ⟨a, rest, -, -, rfl⟩ := h.answered
  exact ⟨rfl, rfl, rfl, rfl, rfl⟩

/-- A receive adds itself to the history and leaves the answers of the other calls alone. -/
theorem Received.keeps {n : Nat} {s : State} {r : RxResult} {ab : List Byte} {aw : BitVec 17} {l : Link}
    (h : Received n s r ab aw l) :
    l.sends = s.link.sends ∧ l.opens = s.link.opens ∧ l.configs = s.link.configs ∧
      l.wire = s.link.wire ++ [.rx n r] := by
  obtain ⟨a, rest, -, ⟨left, -, -, -, -, rfl⟩ | ⟨-, -, -, rfl⟩ | ⟨-, -, -, -, rfl⟩⟩ := h.answered <;>
    exact ⟨rfl, rfl, rfl, rfl⟩

/-- A receive that returned bytes has them in ABUF, and AWAIT is less by their number (R99). -/
theorem Received.bytes {n : Nat} {s : State} {a ab : List Byte} {aw : BitVec 17} {l : Link}
    (h : Received n s (.bytes a) ab aw l) :
    ab = a ∧ aw = s.await - BitVec.ofNat 17 a.length ∧ a.length ≤ n := by
  obtain ⟨b, rest, -, ⟨left, hr, h1, h2, -⟩ | ⟨hr, -⟩ | ⟨hr, -⟩⟩ := h.answered <;> cases hr
  exact ⟨rfl, h1, h2⟩

/-- The receive stream gained bytes at its end, and lost at its head what was returned (R43). -/
theorem Received.stream {n : Nat} {s : State} {r : RxResult} {ab : List Byte} {aw : BitVec 17} {l : Link}
    (h : Received n s r ab aw l) :
    ∃ arriving got, s.link.rx ++ arriving = got ++ l.rx ∧ (got = [] ∨ (r = .bytes got ∧ got.length ≤ n ∧ ab = got)) := by
  obtain ⟨a, rest, -, ⟨left, rfl, -, h1, h2, rfl⟩ | ⟨-, -, -, rfl⟩ | ⟨-, -, -, -, rfl⟩⟩ := h.answered
  · exact ⟨a.arriving, ab, h2, .inr ⟨rfl, h1, rfl⟩⟩
  · exact ⟨a.arriving, [], by simp [linkReceived], .inl rfl⟩
  · exact ⟨a.arriving, [], by simp [linkReceived], .inl rfl⟩

/-- A receive that timed out had a timeout (R218). -/
theorem Received.timeout {n : Nat} {s : State} {ab : List Byte} {aw : BitVec 17} {l : Link}
    (h : Received n s .timeout ab aw l) : s.params.rxTimeout ≠ none := by
  obtain ⟨a, rest, -, ⟨left, hr, -⟩ | ⟨hr, -⟩ | ⟨-, hr, -⟩⟩ := h.answered
  · cases hr
  · cases hr
  · exact hr

/-! ## The transport calls -/

theorem transmit_sent {bytes : List Byte} {s t : State} {r : TxResult} (h : transmit bytes s = .returned r t) :
    ∃ l, Sent bytes s r l ∧ t = { s with link := l } := by
  obtain ⟨hc, ha, hb, a, rest, h1, rfl, rfl⟩ := transmit_returned h
  exact ⟨_, ⟨hc, ha, hb, a, rest, h1, rfl, rfl⟩, rfl⟩

theorem receive_received {n : Nat} {s t : State} {r : RxResult} (h : receive n s = .returned r t) :
    ∃ ab aw l, Received n s r ab aw l ∧ t = { s with abuf := ab, await := aw, link := l } := by
  obtain ⟨hc, h0, h16, ha, a, rest, h1, ⟨c, -, rfl, rfl⟩ | ⟨-, rfl, rfl⟩ | ⟨-, ht, rfl, rfl⟩⟩ := receive_returned h
  · exact ⟨_, _, _, ⟨hc, h0, h16, ha, a, rest, h1,
      .inl ⟨(s.link.rx ++ a.arriving).drop (min c n), rfl, rfl, by simp, by simp, rfl⟩⟩, rfl⟩
  · exact ⟨_, _, _, ⟨hc, h0, h16, ha, a, rest, h1, .inr (.inl ⟨rfl, rfl, rfl, rfl⟩)⟩, rfl⟩
  · exact ⟨_, _, _, ⟨hc, h0, h16, ha, a, rest, h1, .inr (.inr ⟨rfl, ht, rfl, rfl, rfl⟩)⟩, rfl⟩

theorem releaseTransport_returned {s t : State} {x : Unit} (h : releaseTransport s = .returned x t) :
    s.conn ≠ .closed ∧ t = { s with conn := .closed, desync := false, link := record .release s.link } := by
  unfold releaseTransport at h
  split at h <;> cases h
  exact ⟨‹_›, rfl⟩

theorem openTransport_returned {p : Path} {s t : State} {a : ControlAnswer} (h : openTransport p s = .returned a t) :
    s.conn = .closed ∧ ∃ rest, s.link.opens = a :: rest ∧
      t = { s with link := record (.openPath p a) { s.link with opens := rest } } := by
  unfold openTransport at h
  split at h
  · cases h
  · rename_i hc
    split at h <;> cases h
    exact ⟨by simpa using hc, _, ‹_›, rfl⟩

theorem configureLine_returned {s t : State} {a : ControlAnswer} (h : configureLine s = .returned a t) :
    s.conn ≠ .closed ∧ ∃ rest, s.link.configs = a :: rest ∧
      t = { s with link := record (.configure Config.line a) { s.link with configs := rest } } := by
  unfold configureLine at h
  split at h
  · cases h
  · split at h <;> cases h
    exact ⟨‹_›, _, ‹_›, rfl⟩

/-! ## The halves of an exchange -/

/-- A send half waits, sends the frame whole, or raises (R100, R101). -/
theorem sendFrame_shape {cls : ExchangeClass} {bytes : List Byte} {k : BitVec 17} {ph : Seq} {s t : State}
    (h : sendFrame cls bytes k ph s = .next t) :
    t = s ∨ ∃ r l, Sent bytes s r l ∧
      ((r = .count bytes.length ∧ t = { s with await := k, seq := ph, link := l }) ∨
        (r ≠ .count bytes.length ∧ t = raiseError cls (sendError cls) { s with link := l })) := by
  unfold sendFrame at h
  split at h
  · cases h
  · cases h
    exact .inl rfl
  · rename_i r u hu
    obtain ⟨l, hl, rfl⟩ := transmit_sent hu
    split at h <;> cases h
    · exact .inr ⟨r, l, hl, .inl ⟨‹_›, rfl⟩⟩
    · exact .inr ⟨r, l, hl, .inr ⟨‹_›, rfl⟩⟩

/-- RESET_TERM's send waits or goes on (R149). -/
theorem sendBestEffort_shape {bytes : List Byte} {ph : Seq} {s t : State} (h : sendBestEffort bytes ph s = .next t) :
    t = s ∨ ∃ r l, Sent bytes s r l ∧ t = { s with seq := ph, link := l } := by
  unfold sendBestEffort at h
  split at h
  · cases h
  · cases h
    exact .inl rfl
  · rename_i r u hu
    obtain ⟨l, hl, rfl⟩ := transmit_sent hu
    cases h
    exact .inr ⟨r, l, hl, rfl⟩

/-- A receive of `n` that ended in a raise: of `TimeoutError`, or of the exchange's own error `e` (R101). -/
def RaisedBy (cls : ExchangeClass) (n : Nat) (e : Status) (s t : State) : Prop :=
  ∃ r ab aw l e', Received n s r ab aw l ∧ (e' = .timeoutError ∧ s.params.rxTimeout ≠ none ∨ e' = e) ∧
    t = raiseError cls e' { s with abuf := ab, await := aw, link := l }

/-- A receive half waits, raises, or goes on with its `k` bytes in ABUF (R100, R152). -/
theorem receiveExactly_shape {cls : ExchangeClass} {k : Nat} {go : State → Out} {s t : State}
    (h : receiveExactly cls k go s = .next t) :
    t = s ∨ RaisedBy cls k .protocolMismatchError s t ∨
      ∃ a aw l, Received k s (.bytes a) a aw l ∧ a.length = k ∧
        go { s with abuf := a, await := aw, link := l } = .next t := by
  unfold receiveExactly at h
  split at h
  · cases h
  · cases h
    exact .inl rfl
  · rename_i u hu
    obtain ⟨ab, aw, l, hl, rfl⟩ := receive_received hu
    cases h
    exact .inr (.inl ⟨_, _, _, _, _, hl, .inl ⟨rfl, hl.timeout⟩, rfl⟩)
  · rename_i u hu
    obtain ⟨ab, aw, l, hl, rfl⟩ := receive_received hu
    cases h
    exact .inr (.inl ⟨_, _, _, _, _, hl, .inr rfl, rfl⟩)
  · rename_i a u hu
    obtain ⟨ab, aw, l, hl, rfl⟩ := receive_received hu
    obtain ⟨rfl, -⟩ := hl.bytes
    split at h
    · exact .inr (.inr ⟨_, _, _, hl, by simpa [ackLengthOk] using ‹ackLengthOk _ _ = true›, h⟩)
    · cases h
      exact .inr (.inl ⟨_, _, _, _, _, hl, .inr rfl, rfl⟩)

/-- The same, with AWAIT set to 0 (R100). -/
theorem receiveAck_shape {cls : ExchangeClass} {k : Nat} {go : State → Out} {s t : State}
    (h : receiveAck cls k go s = .next t) :
    t = s ∨ RaisedBy cls k .protocolMismatchError s t ∨
      ∃ a aw l, Received k s (.bytes a) a aw l ∧ a.length = k ∧
        go { s with abuf := a, await := 0, link := l } = .next t :=
  receiveExactly_shape h

/-- The same, with the content equal to the literal (R75). -/
theorem receiveLiteral_shape {literal : List Byte} {go : State → Out} {s t : State}
    (h : receiveLiteral literal go s = .next t) :
    t = s ∨ RaisedBy .neg literal.length .protocolMismatchError s t ∨
      ∃ aw l, Received literal.length s (.bytes literal) literal aw l ∧
        go { s with abuf := literal, await := 0, link := l } = .next t := by
  rcases receiveAck_shape h with h | h | ⟨a, aw, l, h1, h2, h3⟩
  · exact .inl h
  · exact .inr (.inl h)
  · simp only at h3
    split at h3
    · obtain rfl : a = literal := by simpa [ackContentOk] using ‹ackContentOk _ _ = true›
      exact .inr (.inr ⟨aw, l, h1, h3⟩)
    · cases h3
      exact .inr (.inl ⟨_, _, aw, _, _, h1, .inr rfl, rfl⟩)

/-- A receive of WTR's input phase waits, raises, or stores at least one byte (R151). -/
theorem receiveInput_shape {last : Bool} {s t : State} (h : receiveInput last s = .next t) :
    t = s ∨ RaisedBy .txn s.chunkN.toNat .shortReadError s t ∨
      ∃ a aw l, Received s.chunkN.toNat s (.bytes a) a aw l ∧ a ≠ [] ∧
        storeInput last a { s with abuf := a, await := aw, link := l } = .next t := by
  unfold receiveInput at h
  split at h
  · cases h
  · cases h
    exact .inl rfl
  · rename_i u hu
    obtain ⟨ab, aw, l, hl, rfl⟩ := receive_received hu
    cases h
    exact .inr (.inl ⟨_, _, _, _, _, hl, .inl ⟨rfl, hl.timeout⟩, rfl⟩)
  · rename_i u hu
    obtain ⟨ab, aw, l, hl, rfl⟩ := receive_received hu
    cases h
    exact .inr (.inl ⟨_, _, _, _, _, hl, .inr rfl, rfl⟩)
  · rename_i a u hu
    obtain ⟨ab, aw, l, hl, rfl⟩ := receive_received hu
    obtain ⟨rfl, -⟩ := hl.bytes
    split at h
    · cases h
      exact .inr (.inl ⟨_, _, _, _, _, hl, .inr rfl, rfl⟩)
    · exact .inr (.inr ⟨_, _, _, hl, ‹_›, h⟩)

end Sys2Proof.Machine
end

