-- ==== Sys2Proof/Laws/Step.lean ====
section
/-!
SUPPORT. What one step can do, said once (10_state R16, 70_reset R230).
-/
namespace Sys2Proof.Machine

/-- A reset that is due is the whole step. -/
theorem step_of_reset {s : State} {backlog : List Byte} (h : s.resetReq = some backlog) :
    step s = .next (applyReset backlog s) := by
  simp [step, h]

/-- Without a reset a step is the due instruction, or nothing is due and nothing changes. -/
theorem step_next {s t : State} (hr : s.resetReq = none) (h : step s = .next t) :
    (fetch s = none ∧ t = s) ∨ ∃ i, fetch s = some i ∧ exec i s = .next t := by
  simp only [step, hr] at h
  split at h
  · cases h
    exact .inl ⟨‹_›, rfl⟩
  · exact .inr ⟨_, ‹_›, h⟩

/-- Nothing is due only to an idle block without a request. -/
theorem fetch_none {s : State} (hr : s.busy = true → s.seq ≠ .idle) (h : fetch s = none) :
    s.busy = false ∧ s.port = none := by
  unfold fetch at h
  split at h
  · rename_i hb
    unfold phaseInstr at h
    split at h <;> first | exact absurd ‹_› (hr hb) | cases h
  · rename_i hb
    exact ⟨by simpa using hb, by simpa using h⟩

end Sys2Proof.Machine
end

