-- ==== Sys2Proof/Laws/Transactions.lean ====
section
/-!
SUPPORT. What a whole transaction is made of: the chunks a payload is cut into (20_memory R48) and the bytes a buffer holds
after a store (R42, R47 item 3).
-/
namespace Sys2Proof.Machine

theorem stored_writeAll (m : Memory) (i : Nat) (d : List Byte) : Stored m (m.writeAll i d) i d := by
  refine fun hm => ⟨fun k b h => ?_, fun j hj => Memory.read_writeAll_other m i j d hj⟩
  obtain ⟨hk, rfl⟩ := List.getElem?_eq_some_iff.mp h
  exact Memory.read_writeAll_same m hm i k d hk

theorem stored_write (m : Memory) (i : Nat) (b : Byte) : Stored m (m.write i b) i [b] := stored_writeAll m i [b]

/-- Every chunk has 1 to 15 bytes, all but the last have 15, and together they are the payload. -/
theorem chunksOf_spec (fuel : Nat) (data : List Byte) (h : data.length ≤ fuel) :
    (∀ c ∈ chunksOf fuel data, 1 ≤ c.length ∧ c.length ≤ 15) ∧ (∀ c ∈ (chunksOf fuel data).dropLast, c.length = 15) ∧
      (chunksOf fuel data).flatten = data := by
  induction fuel generalizing data with
  | zero => simp [List.eq_nil_of_length_eq_zero (show data.length = 0 by omega), chunksOf]
  | succ fuel ih =>
    unfold chunksOf
    split
    · simp_all
    · rename_i hne
      have hpos : 0 < data.length := List.length_pos_iff.mpr hne
      obtain ⟨hsize, hfull, hflat⟩ := ih (data.drop Config.chunkW) (by simp [Config.chunkW]; omega)
      refine ⟨?_, fun c hc => ?_, by simp [hflat]⟩
      · simp only [List.mem_cons, forall_eq_or_imp]
        exact ⟨by simp [Config.chunkW]; omega, hsize⟩
      · cases hx : chunksOf fuel (data.drop Config.chunkW) with
        | nil => simp [hx] at hc
        | cons x xs =>
          rw [hx] at hc hfull
          rw [List.dropLast_cons_of_ne_nil (by simp)] at hc
          rcases List.mem_cons.mp hc with rfl | hc
          · by_cases hl : 15 < data.length
            · simp [Config.chunkW]; omega
            · rw [show data.drop Config.chunkW = [] by simp [Config.chunkW]; omega] at hx
              cases fuel <;> simp [chunksOf] at hx
          · exact hfull c hc

/-- The two frames of a chunk are the byte `0x10` plus its length, and the chunk. -/
theorem bulkFrames_eq (p : Params) (chunk : List Byte) (h : chunk.length ≤ 15) :
    bulkFrames p chunk = [[BitVec.ofNat 8 (0x10 + chunk.length)], chunk] := by
  have command : ∀ n : Fin 16, bulkCommand (BitVec.ofNat 4 n) = BitVec.ofNat 8 (0x10 + n) := by decide
  simpa [bulkFrames, frameBytes] using command ⟨chunk.length, by omega⟩

end Sys2Proof.Machine
end

