-- ==== Sys2Proof/Tests/Slice0.lean ====
section
/-!
SUPPORT. Tests. Expected results come from 95_test_vectors.md, from the frame table of 30_encoding.md (R62 to R74) and from
the pseudocode of the rule named in each comment. The witnesses at the end show that the hypotheses of every obligation can
be met.
-/
namespace Sys2Proof.Tests

open Sys2Proof.Machine

/-! ## Well-formedness: each check refuses its ill-formed term (R62, R68, R77, R180) -/

theorem test_wf_reserved :
    (Instr.reservedOp5 Operands.zero).wellFormed = false ∧ (Instr.reservedOp6 Operands.zero).wellFormed = false ∧
      (Instr.reservedOp7 Operands.zero).wellFormed = false := by decide

theorem test_wf_addrSelect :
    (Instr.addrSelect 0x77#7 .read 0xF4#8).wellFormed = false ∧
      (Instr.addrSelect 0x77#7 .write 0xF4#8).wellFormed = true := by decide

theorem test_wf_bulkHdr : (Instr.bulkHdr 0#4).wellFormed = false ∧ (Instr.bulkHdr 1#4).wellFormed = true ∧
    (Instr.bulkHdr 15#4).wellFormed = true := by decide

theorem test_wf_bulkPayload :
    (Instr.bulkPayload []).wellFormed = false ∧ (Instr.bulkPayload (List.replicate 16 0#8)).wellFormed = false ∧
      (Instr.bulkPayload [0#8]).wellFormed = true ∧ (Instr.bulkPayload (List.replicate 15 0#8)).wellFormed = true := by
  decide

theorem test_wf_wtr :
    (Instr.wtr 0 (List.replicate 129 0#8)).wellFormed = false ∧
      (Instr.wtr 0xFFFF#16 (List.replicate 128 0#8)).wellFormed = true ∧ (Instr.wtr 0 []).wellFormed = true := by
  simp [Instr.wellFormed, Config.maxWriteLen]

/-! ## Decoding: words written out from the spec's encodings -/

/-- R60: the operation codes 000 to 111. -/
theorem test_decode_requests :
    decodeRequest { op := 0b000#3, args := Operands.zero } = .init Operands.zero ∧
    decodeRequest { op := 0b001#3, args := Operands.zero } = .close Operands.zero ∧
    decodeRequest { op := 0b010#3, args := Operands.zero } = .write Operands.zero ∧
    decodeRequest { op := 0b011#3, args := Operands.zero } = .read Operands.zero ∧
    decodeRequest { op := 0b100#3, args := Operands.zero } = .delay Operands.zero ∧
    decodeRequest { op := 0b101#3, args := Operands.zero } = .reservedOp5 Operands.zero ∧
    decodeRequest { op := 0b110#3, args := Operands.zero } = .reservedOp6 Operands.zero ∧
    decodeRequest { op := 0b111#3, args := Operands.zero } = .reservedOp7 Operands.zero := by decide

/-- R63: twenty bytes of zeros in the terminal mode; nineteen are no frame. -/
theorem test_decode_enterBinary :
    decode Params.default .terminal (.frame (List.replicate 20 0b00000000#8)) = .ok .enterBinary ∧
    decode Params.default .terminal (.frame (List.replicate 19 0b00000000#8)) = .error .truncated := by decide

/-- R64: `02 48 60`. -/
theorem test_decode_enterI2c :
    decode Params.default .binary (.frame [0b00000010#8, 0b01001000#8, 0b01100000#8]) = .ok .enterI2c := by decide

/-- R65: `02 12 aaaaaaad rrrrrrrr`. -/
theorem test_decode_addrSelect :
    decode Params.default .perByte (.frame [0b00000010#8, 0b00010010#8, 0b11101110#8, 0b11111101#8]) =
      .ok (.addrSelect 0x77#7 .write 0xFD#8) ∧
    decode Params.default .perByte (.frame [0b00000010#8, 0b00010010#8, 0b00000001#8, 0b00000000#8]) =
      .ok (.addrSelect 0x00#7 .read 0x00#8) := by decide

/-- R66: `02 11 aaaaaaa1`; another second byte is refused by name. -/
theorem test_decode_reselectRead :
    decode Params.default .perByte (.frame [0b00000010#8, 0b00010001#8, 0b11111111#8]) = .ok (.reselectRead 0x7F#7) ∧
    decode Params.default .perByte (.frame [0b00000010#8, 0b00010011#8, 0b11111111#8]) = .error (.unknownTag 0x13#8) := by
  decide

/-- R67: `0001nnnn`. -/
theorem test_decode_bulkHdr :
    decode Params.default .perByte (.frame [0b00010001#8]) = .ok (.bulkHdr 1#4) ∧
    decode Params.default .perByte (.frame [0b00010110#8]) = .ok (.bulkHdr 6#4) := by decide

/-- R68, R76: after BULK_HDR the bytes are payload, whatever they are. -/
theorem test_decode_bulkPayload :
    decode Params.default (.payload 2) (.frame [0b00000011#8, 0b00010001#8]) = .ok (.bulkPayload [0x03#8, 0x11#8]) := by
  decide

/-- R69, R70, R71: `03`, `04 06`, `04 07 03`. -/
theorem test_decode_stop_readByte_endRead :
    decode Params.default .perByte (.frame [0b00000011#8]) = .ok .stop ∧
    decode Params.default .perByte (.frame [0b00000100#8, 0b00000110#8]) = .ok .readByte ∧
    decode Params.default .perByte (.frame [0b00000100#8, 0b00000111#8, 0b00000011#8]) = .ok .endRead := by decide

/-- R72: `00 0F`. -/
theorem test_decode_resetTerm :
    decode Params.default .perByte (.frame [0b00000000#8, 0b00001111#8]) = .ok .resetTerm := by decide

/-- R73: `08`, two lengths high byte first, payload. -/
theorem test_decode_wtr :
    decode Params.default .combined
        (.frame [0b00001000#8, 0b00000000#8, 0b00000010#8, 0b00000001#8, 0b00000010#8, 0b11101110#8, 0b11110100#8]) =
      .ok (.wtr 258#16 [0xEE#8, 0xF4#8]) ∧
    decode Params.default .combined (.frame [0x08#8, 0x00#8, 0x01#8, 0x00#8, 0x00#8]) = .error .truncated := by decide

/-- R77: bytes that begin no frame are refused by name. -/
theorem test_decode_refuses :
    decode Params.default .perByte (.frame [0x20#8]) = .error (.unknownCommand 0x20#8) ∧
    decode Params.default .perByte (.frame [0x04#8, 0x05#8]) = .error (.unknownCommand 0x05#8) ∧
    decode Params.default .perByte (.frame [0x03#8, 0x03#8]) = .error .trailingBytes ∧
    decode Params.default .perByte (.frame []) = .error .truncated := by decide

/-- 95 section 3.1: address bytes and lengths. -/
theorem test_fields :
    addressByte 0x3C#7 .write = 0x78#8 ∧ addressByte 0x40#7 .read = 0x81#8 ∧ addressByte 0x7F#7 .read = 0xFF#8 ∧
      lengthBytes 258#16 = [0x01#8, 0x02#8] ∧ lengthBytes 20#16 = [0x00#8, 0x14#8] := by decide

/-- One word of the opcode table for each kind of row, as the host numbers them. -/
theorem test_table_words :
    decodeTableWord 3 1 = some (.close Operands.zero) ∧ decodeTableWord 24 0x024860 = some .enterI2c ∧
      decodeTableWord 32 0x0212EEF4 = some (.addrSelect 0x77#7 .write 0xF4#8) ∧
      decodeTableWord 8 0x1F = some (.bulkHdr 15#4) ∧ decodeTableWord 160 0 = some .enterBinary ∧
      decodeTableWord 40 0x0800000003 = some (.wtr 3#16 []) := by decide

/-! ## States for the tests -/

/-- The operands of the source's write scenario (95 S1), with a length. -/
def operands (len : Half) : Operands :=
  { devId := 0x77#7, regAddr := 0xF4#8, len := len, path := 5, strategy := .combined, delayMs := 20#32 }

/-- An open, idle block. -/
def idleOpen : State := { State.reset with conn := .i2cMode }

/-- An idle block with a request at its port. -/
def asking (op : BitVec 3) (len : Half) (s : State) : State := { s with port := some { op := op, args := operands len } }

/-- An operation in flight. -/
def inFlight (conn : Conn) (strat : Strategy) (op : BitVec 3) (len : Half) (seq : Seq) (await : BitVec 17) : State :=
  { State.reset with
    conn := conn, strat := strat, op := op, args := operands len, seq := seq, await := await, busy := true }

/-- The environment will answer the next `TX` so. -/
def sending (a : TxAnswer) (s : State) : State := { s with link := { s.link with sends := [a] } }

/-- The environment will answer the next `RX` so. -/
def receiving (arriving : List Byte) (r : RxReturn) (s : State) : State :=
  { s with link := { s.link with recvs := [⟨arriving, r⟩] } }

/-- The next state, if there is one. -/
def after (o : Out) : Option State :=
  match o with
  | .next t => some t
  | _ => none

/-- What a step leaves in SEQ, CONN, AWAIT and the history. -/
def outcome (s : State) : Option (Seq × Conn × Nat × List Call) :=
  (after (step s)).map fun t => (t.seq, t.conn, t.await.toNat, t.link.wire)

/-! ## Reset and the step -/

/-- R231. -/
theorem test_reset : State.reset.conn = .closed ∧ State.reset.seq = .idle ∧ hostRead State.reset .busy = 0 := by decide

/-- R14, R60, R219: the numbers a host reads after a WRITE of 258 bytes to register F4 of device 77 was cut short. -/
theorem test_host_reads :
    let s := { inFlight .i2cMode .combined 2 258 .idle 0 with status := .shortWriteError, desync := true }
    [HostReg.conn, .strat, .status, .desync, .op, .devId, .regAddr, .len, .delayMs, .path].map (hostRead s) =
      [3, 1, 4, 1, 2, 0x77, 0xF4, 258, 20, 5] := by decide

/-- An idle block waits (R231). -/
theorem test_step_idle : (after (step State.reset)) = some State.reset := by decide

/-- R233: a reset in the middle of a READ sends nothing and takes no result. -/
theorem test_step_reset :
    (after (step { inFlight .i2cMode .perByte 3 2 .rByteRx 1 with resetReq := some [0x55#8] })).map
      (fun t => (t.conn, t.seq, t.await.toNat, t.link.rx, t.link.wire)) =
        some (.closed, .idle, 0, [0x55#8], []) := by decide

/-! ## One step of each instruction -/

/-- INIT accepted (R103). -/
theorem test_init_accepted :
    (after (step (asking 0 0 State.reset))).map (fun t => (t.busy, t.seq, t.args.strategy, t.strat, t.port)) =
      some (true, .iCheck, .combined, .perByte, none) := by decide

/-- INIT's `open` (R124). -/
theorem test_init_open :
    outcome { inFlight .closed .perByte 0 0 .iOpen 0 with link := { Link.empty with opens := [.ok] } } =
      some (.iConfig, .unknown, 0, [.openPath 5 .ok]) := by decide

/-- CLOSE on a Closed block is an error (R127, 95 E2). -/
theorem test_close_closed :
    outcome (inFlight .closed .perByte 1 0 .cCheck 0) = some (.cDone .invalidStateError, .closed, 0, []) := by decide

/-- CLOSE releases (R126). -/
theorem test_close_release :
    outcome (inFlight .i2cMode .perByte 1 0 .cRelease 0) = some (.cDone .ok, .closed, 0, [.release]) := by decide

/-- WRITE of 127 bytes is refused before anything is sent (R170, 95 W8). -/
theorem test_write_too_long :
    outcome (inFlight .i2cMode .perByte 2 127 .wCheck 0) = some (.wDone .payloadTooLargeError, .i2cMode, 0, []) := by
  decide

/-- WRITE of 126 bytes goes on (R170). -/
theorem test_write_longest :
    outcome (inFlight .i2cMode .perByte 2 126 .wCheck 0) = some (.wAddrTx, .i2cMode, 0, []) := by decide

/-- READ in the Combined strategy starts with the pointer frame (R179). -/
theorem test_read_combined :
    outcome (inFlight .i2cMode .combined 3 65535 .xCheck 0) = some (.xCmdTx false, .i2cMode, 0, []) := by decide

/-- READ after a raise: DESYNC 1, the error in STATUS, CONN kept (R213, R214). -/
theorem test_read_raised :
    (after (step (inFlight .i2cMode .perByte 3 2 (.raised .shortWriteError) 0))).map
      (fun t => (t.status, t.desync, t.conn, t.busy)) = some (.shortWriteError, true, .i2cMode, false) := by decide

/-- DELAY completes with `Ok` (R185). -/
theorem test_delay_done :
    (after (step (inFlight .closed .perByte 4 0 .dDone 0))).map (fun t => (t.status, t.busy, t.seq)) =
      some (.ok, false, .idle) := by decide

/-- ENTER_BINARY with 19 of 20 bytes accepted aborts the negotiation (95 T11). -/
theorem test_enterBinary_short :
    outcome (sending (.count 19) (inFlight .unknown .perByte 0 0 .iBinTx 0)) =
      some (.aResetTx .protocolMismatchError, .unknown, 0, [.tx (List.replicate 20 0#8) (.count 19)]) := by decide

/-- ENTER_BINARY with a corrupted last byte (95 N2). -/
theorem test_enterBinary_corrupted :
    outcome (receiving [0x42#8, 0x42#8, 0x49#8, 0x4F#8, 0x32#8] (.count 5)
        (inFlight .unknown .perByte 0 0 .iBinRx 5)) =
      some (.aResetTx .protocolMismatchError, .unknown, 0,
        [.rx 5 (.bytes [0x42#8, 0x42#8, 0x49#8, 0x4F#8, 0x32#8])]) := by decide

/-- ENTER_I2C with the right six bytes (95 N1). -/
theorem test_enterI2c_ok :
    outcome (receiving [0x49#8, 0x32#8, 0x43#8, 0x31#8, 0x01#8, 0x01#8] (.count 6)
        (inFlight .binaryMode .perByte 0 0 .iI2cRx 6)) =
      some (.iDone, .i2cMode, 0, [.rx 6 (.bytes [0x49#8, 0x32#8, 0x43#8, 0x31#8, 0x01#8, 0x01#8])]) := by decide

/-- ADDR_SELECT of the source's write scenario, as corrected (95 S1). -/
theorem test_addrSelect_sent :
    outcome (sending (.count 4) (inFlight .i2cMode .perByte 2 1 .wAddrTx 0)) =
      some (.wAddrRx, .i2cMode, 4, [.tx [0x02#8, 0x12#8, 0xEE#8, 0xF4#8] (.count 4)]) := by decide

/-- ADDR_SELECT with 3 of 4 acknowledgment bytes (95 T10). -/
theorem test_addrSelect_short_ack :
    outcome (receiving [0x02#8, 0x12#8, 0xEE#8] (.count 3) (inFlight .i2cMode .perByte 2 1 .wAddrRx 4)) =
      some (.raised .protocolMismatchError, .i2cMode, 0, [.rx 4 (.bytes [0x02#8, 0x12#8, 0xEE#8])]) := by decide

/-- RESELECT_READ of the read scenario (95 S2). -/
theorem test_reselectRead_sent :
    outcome (sending (.count 3) (inFlight .i2cMode .perByte 3 2 .rReselTx 0)) =
      some (.rReselRx, .i2cMode, 3, [.tx [0x02#8, 0x11#8, 0xEF#8] (.count 3)]) := by decide

/-- RESELECT_READ of a READ of 0 bytes goes to the end-of-read frame (R175). -/
theorem test_reselectRead_empty :
    outcome (receiving [0#8, 0#8, 0#8] (.count 3) (inFlight .i2cMode .perByte 3 0 .rReselRx 3)) =
      some (.rEndTx, .i2cMode, 0, [.rx 3 (.bytes [0#8, 0#8, 0#8])]) := by decide

/-- BULK_HDR of a chunk of 15 (R67, R171). -/
theorem test_bulkHdr_sent :
    outcome (sending (.count 1) { inFlight .i2cMode .perByte 2 20 .wHdrTx 0 with chunkN := 15 }) =
      some (.wHdrRx, .i2cMode, 1, [.tx [0x1F#8] (.count 1)]) := by decide

/-- BULK_PAYLOAD takes its bytes from WBUF at CURSOR (R68). -/
theorem test_bulkPayload_sent :
    outcome (sending (.count 2)
        { inFlight .i2cMode .perByte 2 3 .wPayTx 0 with
          chunkN := 2, cursor := 1, wbuf := [(0, 0xA0#8), (1, 0xA1#8), (2, 0xA2#8)] }) =
      some (.wPayRx, .i2cMode, 2, [.tx [0xA1#8, 0xA2#8] (.count 2)]) := by decide

/-- BULK_PAYLOAD: the last chunk of 20 bytes is followed by STOP, and an acknowledgment of other bytes passes (R144). -/
theorem test_bulkPayload_last :
    (after (step (receiving [1#8, 2#8, 3#8, 4#8, 5#8] (.count 5)
        { inFlight .i2cMode .perByte 2 20 .wPayRx 5 with chunkN := 5, cursor := 15 }))).map
      (fun t => (t.seq, t.cursor.toNat)) = some (.wStopTx, 20) := by decide

/-- STOP with no acknowledgment byte and with the timeout (95 T5, T7). -/
theorem test_stop_errors :
    (after (step (receiving [] (.count 0) (inFlight .i2cMode .perByte 2 1 .wStopRx 1)))).map (·.seq) =
      some (.raised .protocolMismatchError) ∧
    (after (step (receiving [] .timeout
        { inFlight .i2cMode .perByte 2 1 .wStopRx 1 with params := { Params.default with rxTimeout := some 1 } }))).map
      (·.seq) = some (.raised .timeoutError) := by decide

/-- STOP whose receive never returns stays where it is (95 T8). -/
theorem test_stop_hangs :
    (after (step (inFlight .i2cMode .perByte 2 1 .wStopRx 1))).map (fun t => (t.seq, t.busy)) = some (.wStopRx, true) := by
  decide

/-- READ_BYTE stores the byte at CURSOR (95 S2). -/
theorem test_readByte_stores :
    (after (step (receiving [0x60#8] (.count 1)
        { inFlight .i2cMode .perByte 3 2 .rByteRx 1 with cursor := 1, rbuf := [(0, 0x55#8)] }))).map
      (fun t => (t.rbuf, t.cursor.toNat, t.seq)) = some ([(0, 0x55#8), (1, 0x60#8)], 2, .rEndTx) := by decide

/-- END_READ (R71). -/
theorem test_endRead_sent :
    outcome (sending (.count 3) (inFlight .i2cMode .perByte 3 0 .rEndTx 0)) =
      some (.rEndRx, .i2cMode, 3, [.tx [0x04#8, 0x07#8, 0x03#8] (.count 3)]) := by decide

/-- RESET_TERM goes on after a failed send (R128). -/
theorem test_resetTerm_failed :
    outcome (sending (.ioError 0) (inFlight .i2cMode .perByte 1 0 .cResetTx 0)) =
      some (.cRelease, .i2cMode, 0, [.tx [0x00#8, 0x0F#8] (.ioError 0)]) := by decide

/-- WTR of a Combined WRITE of one byte (R178). -/
theorem test_wtr_write :
    outcome (sending (.count 8) { inFlight .i2cMode .combined 2 1 (.xCmdTx true) 0 with wbuf := [(0, 0x25#8)] }) =
      some (.xStatRx true, .i2cMode, 1,
        [.tx [0x08#8, 0x00#8, 0x03#8, 0x00#8, 0x00#8, 0xEE#8, 0xF4#8, 0x25#8] (.count 8)]) := by decide

/-- WTR's input phase stores a partial receive and asks for the rest (R181). -/
theorem test_wtr_partial :
    (after (step (receiving [0xA1#8, 0xA2#8] (.count 2)
        { inFlight .i2cMode .combined 3 20 (.xDataRx true) 20 with remain := 20, chunkN := 16 }))).map
      (fun t => (t.rbuf, t.cursor.toNat, t.remain.toNat, t.chunkN.toNat, t.await.toNat)) =
        some ([(0, 0xA1#8), (1, 0xA2#8)], 2, 18, 16, 18) := by decide

/-- A reserved code is refused by its own name (R77). -/
theorem test_reserved_refused :
    step (asking 5 0 State.reset) = .refused (.reservedOperation 5) ∧
      step (asking 7 0 idleOpen) = .refused (.reservedOperation 7) := ⟨rfl, rfl⟩

/-- A word of the table placed after reset is what the next step executes (log entry 18). -/
theorem test_withFetchWord :
    fetch (State.reset.withFetchWord 3 4) = some (.delay Operands.zero) ∧
      fetch (State.reset.withFetchWord 24 0x0211EF) = some (.reselectRead 0x77#7) ∧
      (after (step (State.reset.withFetchWord 3 4))).map (·.seq) = some .dWait := by decide

/-! ## Witnesses: the hypotheses of the obligations can be met -/

/-- The decidable part of a legal state. -/
def checks (s : State) : Bool :=
  (s.busy == decide (s.seq ≠ .idle)) && connAt s.seq s.conn && opAt s.seq s.op && stratAt s.seq s.strat &&
    (s.await.toNat == owed s) && resultAt s && decide (s.desync = true → s.conn = .i2cMode ∧ s.seq ≠ .iDone) &&
    decide (s.abuf.length ≤ Config.chunkR) && Memory.wf s.wbuf && Memory.wf s.rbuf

theorem inv_of {s : State} (h : checks s = true) (hc : countersOk s) : Inv s := by
  simp only [checks, Bool.and_eq_true, beq_iff_eq, decide_eq_true_eq] at h
  obtain ⟨⟨⟨⟨⟨⟨⟨⟨⟨h1, h2⟩, h3⟩, h4⟩, h5⟩, h6⟩, h7⟩, h8⟩, h9⟩, h10⟩ := h
  exact ⟨by rw [h1]; simp, h2, h3, h4, h5, hc, h6, h7, h8, h9, h10⟩

theorem i2cMode_held : Conn.i2cMode ≠ .closed := by decide

theorem unknown_held : Conn.unknown ≠ .closed := by decide

theorem closed_not_i2cMode : Conn.closed ≠ .i2cMode := by decide

/-! ### Legal states used below -/

/-- A READ about to receive its second byte, which the environment answers. -/
def readingByte : State :=
  receiving [0x60#8] (.count 1) { inFlight .i2cMode .perByte 3 2 .rByteRx 1 with cursor := 1 }

theorem readingByte_legal : Inv readingByte := inv_of (by decide) (by decide : 1 < 2)

/-- A WRITE about to send its stop frame. -/
def sendingStop : State := sending (.count 1) { inFlight .i2cMode .perByte 2 1 .wStopTx 0 with cursor := 1 }

theorem sendingStop_legal : Inv sendingStop := inv_of (by decide) (by decide : 1 ≤ 126 ∧ (1 : Half) = 1)

/-- A Combined READ about to receive 2 of 20 bytes. -/
def readingInput : State :=
  receiving [0xA1#8, 0xA2#8] (.count 2)
    { inFlight .i2cMode .combined 3 20 (.xDataRx true) 20 with remain := 20, chunkN := 16 }

theorem readingInput_legal : Inv readingInput :=
  inv_of (by decide) (by decide : (20 : Half) ≠ 0 ∧ 0 + 20 = 20 ∧ (16 : BitVec 5) = inputChunk 20)

/-- A WRITE that has raised. -/
def raisedWrite : State := inFlight .i2cMode .perByte 2 1 (.raised .shortWriteError) 0

theorem raisedWrite_legal : Inv raisedWrite := inv_of (by decide) trivial

/-- An INIT that has negotiated, with the Combined strategy. -/
def initDone : State := inFlight .i2cMode .perByte 0 0 .iDone 0

theorem initDone_legal : Inv initDone := inv_of (by decide) trivial

/-- A CLOSE about to release, with DESYNC 1. -/
def releasing : State := { inFlight .i2cMode .perByte 1 0 .cRelease 0 with desync := true }

theorem releasing_legal : Inv releasing := inv_of (by decide) trivial

/-! ### Reset, step, encodings -/

theorem witness_ResetCutsEverything : { readingByte with resetReq := some [0x55#8] }.resetReq = some [0x55#8] := rfl

theorem witness_StepRunsTheDueInstruction :
    (readingByte.resetReq = none ∧ readingByte.busy = true ∧ phaseInstr readingByte = some .readByte) ∧
    ((asking 3 2 idleOpen).resetReq = none ∧ (asking 3 2 idleOpen).busy = false ∧
      (asking 3 2 idleOpen).port = some { op := 3, args := operands 2 }) ∧
    (State.reset.resetReq = none ∧ State.reset.busy = false ∧ State.reset.port = none) := by decide

theorem witness_EncodeThenDecode :
    ∀ i ∈ [Instr.enterBinary, .enterI2c, .addrSelect 0x7F#7 .write 0xFF#8, .reselectRead 0x00#7, .bulkHdr 1#4,
        .bulkHdr 15#4, .bulkPayload [0x00#8], .bulkPayload (List.replicate 15 0x03#8), .stop, .readByte, .endRead,
        .resetTerm, .wtr 0 [], .wtr 0xFFFF#16 [0xFF#8]],
      i.wellFormed = true ∧ isFrame i = true := by decide

theorem witness_UnknownFirstByteIsNoFrame :
    ∀ b ∈ [0x01#8, 0x05#8, 0x0F#8, 0x20#8, 0xFF#8],
      b ≠ 0x00#8 ∧ b ≠ 0x02#8 ∧ b ≠ 0x03#8 ∧ b ≠ 0x04#8 ∧ (b.toNat < 0x10 ∨ 0x20 ≤ b.toNat) := by decide

/-! ### Rules of the whole machine -/

theorem witness_StepKeepsLegal : ∃ s t, Inv s ∧ step s = .next t := ⟨readingInput, _, readingInput_legal, rfl⟩

theorem witness_LegalNeverStopsButForReserved :
    ∃ s, Inv s ∧ step s = .refused (.reservedOperation 6) := ⟨asking 6 0 idleOpen, inv_of (by decide) trivial, rfl⟩

/-- One legal state before each edge of CONN (R11). -/
theorem witness_ConnMovesOnlyAlongEdges :
    (∃ s t, Inv s ∧ step s = .next t ∧ s.conn = .closed ∧ t.conn = .unknown) ∧
    (∃ s t, Inv s ∧ step s = .next t ∧ s.conn = .unknown ∧ t.conn = .binaryMode) ∧
    (∃ s t, Inv s ∧ step s = .next t ∧ s.conn = .binaryMode ∧ t.conn = .i2cMode) ∧
    (∃ s t, Inv s ∧ step s = .next t ∧ s.conn = .binaryMode ∧ t.conn = .closed) ∧
    (∃ s t, Inv s ∧ step s = .next t ∧ s.conn = .i2cMode ∧ t.conn = .closed) ∧
    (∃ s t, Inv s ∧ step s = .next t ∧ s.resetReq ≠ none ∧ s.conn = .i2cMode ∧ t.conn = .closed) :=
  ⟨⟨{ inFlight .closed .perByte 0 0 .iOpen 0 with link := { Link.empty with opens := [.ok] } }, _,
      inv_of (by decide) trivial, rfl, rfl, rfl⟩,
    ⟨receiving binaryAck (.count 5) (inFlight .unknown .perByte 0 0 .iBinRx 5), _, inv_of (by decide) trivial, rfl, rfl,
      rfl⟩,
    ⟨receiving i2cAck (.count 6) (inFlight .binaryMode .perByte 0 0 .iI2cRx 6), _, inv_of (by decide) trivial, rfl, rfl,
      rfl⟩,
    ⟨inFlight .binaryMode .perByte 0 0 (.aRelease .protocolMismatchError) 0, _, inv_of (by decide) trivial, rfl, rfl,
      rfl⟩,
    ⟨releasing, _, releasing_legal, rfl, rfl, rfl⟩,
    ⟨{ readingByte with resetReq := some [] }, _, inv_of (by decide) (by decide : 1 < 2), rfl, by decide, rfl, rfl⟩⟩

theorem witness_FramesInFlightAreLegal :
    (∃ s, Inv s ∧ s.busy = true ∧ phaseInstr s = some .readByte ∧ isFrame .readByte = true) ∧
    (∃ s i, Inv s ∧ s.busy = true ∧ phaseInstr s = some i ∧ isFrame i = true ∧ s.strat = .combined) :=
  ⟨⟨readingByte, readingByte_legal, rfl, rfl, rfl⟩, ⟨readingInput, _, readingInput_legal, rfl, rfl, rfl, rfl⟩⟩

theorem witness_SendsOnlyWhenNothingIsOwed :
    ∃ s t, s.resetReq = none ∧ step s = .next t ∧ t.link.wire = s.link.wire ++ [.tx [0x03#8] (.count 1)] :=
  ⟨sendingStop, _, rfl, rfl, rfl⟩

theorem witness_ReceivesOnlyWhatIsOwed :
    (∃ s t, Inv s ∧ s.resetReq = none ∧ step s = .next t ∧ t.link.wire = s.link.wire ++ [.rx 1 (.bytes [0x60#8])]) ∧
    (∃ s t, Inv s ∧ s.resetReq = none ∧ step s = .next t ∧ s.seq = .xDataRx true ∧
      t.link.wire = s.link.wire ++ [.rx 16 (.bytes [0xA1#8, 0xA2#8])]) ∧
    (∃ s t, Inv s ∧ s.resetReq = none ∧ step s = .next t ∧ s.seq = .xStatRx true ∧
      t.link.wire = s.link.wire ++ [.rx 1 (.bytes [0x01#8])]) :=
  ⟨⟨readingByte, _, readingByte_legal, rfl, rfl, rfl⟩, ⟨readingInput, _, readingInput_legal, rfl, rfl, rfl, rfl⟩,
    ⟨receiving [0x01#8] (.count 1) (inFlight .i2cMode .combined 3 20 (.xStatRx true) 21), _,
      inv_of (by decide) (by decide : (0 : Half) = 0 ∧ ((3 : BitVec 3) = 2 → 20 ≤ 126)), rfl, rfl, rfl, rfl⟩⟩

theorem witness_AwaitFollowsTheWire :
    (∃ s t, Inv s ∧ s.resetReq = none ∧ step s = .next t ∧
      t.link.wire = s.link.wire ++ [.tx [0x03#8] (.count [0x03#8].length)]) ∧
    (∃ s t, Inv s ∧ s.resetReq = none ∧ step s = .next t ∧
      t.link.wire = s.link.wire ++ [.rx 16 (.bytes [0xA1#8, 0xA2#8])]) ∧
    (∃ s t, Inv s ∧ s.resetReq = none ∧ step s = .next t ∧ t.seq = .raised .protocolMismatchError) ∧
    (∃ s t, Inv s ∧ s.resetReq = none ∧ step s = .next t ∧ t.busy = false) :=
  ⟨⟨sendingStop, _, sendingStop_legal, rfl, rfl, rfl⟩, ⟨readingInput, _, readingInput_legal, rfl, rfl, rfl⟩,
    ⟨receiving [] (.count 0) (inFlight .i2cMode .perByte 3 2 .rByteRx 1), _, inv_of (by decide) (by decide : 0 < 2), rfl,
      rfl, rfl⟩,
    ⟨raisedWrite, _, raisedWrite_legal, rfl, rfl, rfl⟩⟩

theorem witness_WireGrowsByAtMostOneCall : ∃ s t, step s = .next t ∧ t.link.wire ≠ s.link.wire :=
  ⟨sendingStop, _, rfl, by decide⟩

theorem witness_ReceiveTakesOldestFirst :
    ∃ s t, s.resetReq = none ∧ step s = .next t ∧ t.abuf = [0xA1#8, 0xA2#8] := ⟨readingInput, _, rfl, rfl, rfl⟩

theorem witness_StatusIsWrittenAtCompletion :
    ∃ s t, s.resetReq = none ∧ step s = .next t ∧ t.status ≠ s.status ∧ s.busy = true ∧ t.busy = false :=
  ⟨raisedWrite, _, rfl, rfl, by decide, rfl, rfl⟩

theorem witness_OperandsStayLatched :
    ∃ s t, step s = .next t ∧ s.busy = true ∧ s.resetReq = none ∧ s.port ≠ none :=
  ⟨asking 4 0 readingByte, _, rfl, rfl, rfl, by decide⟩

theorem witness_StrategyChangesOnlyAtInit : ∃ s t, Inv s ∧ step s = .next t ∧ t.strat ≠ s.strat :=
  ⟨initDone, _, initDone_legal, rfl, by decide⟩

theorem witness_DesyncIsSticky :
    (∃ s t, Inv s ∧ step s = .next t ∧ s.resetReq = none ∧ s.desync = false ∧ t.desync = true ∧
      s.seq = .raised .shortWriteError) ∧
    (∃ s t, Inv s ∧ step s = .next t ∧ s.desync = true ∧ t.desync = false) :=
  ⟨⟨raisedWrite, _, raisedWrite_legal, rfl, rfl, rfl, rfl, rfl⟩, ⟨releasing, _, releasing_legal, rfl, rfl, rfl⟩⟩

/-- A legal last step of each operation. -/
theorem witness_ResultsByOperation :
    ∀ op ∈ [(0 : BitVec 3), 1, 2, 3, 4], ∃ s t, Inv s ∧ s.resetReq = none ∧ s.busy = true ∧ step s = .next t ∧
      t.busy = false ∧ s.op = op := by
  intro op h
  simp only [List.mem_cons, List.not_mem_nil, or_false] at h
  rcases h with rfl | rfl | rfl | rfl | rfl
  · exact ⟨initDone, _, initDone_legal, rfl, rfl, rfl, rfl, rfl⟩
  · exact ⟨inFlight .closed .perByte 1 0 (.cDone .ok) 0, _, inv_of (by decide) trivial, rfl, rfl, rfl, rfl, rfl⟩
  · exact ⟨raisedWrite, _, raisedWrite_legal, rfl, rfl, rfl, rfl, rfl⟩
  · exact ⟨inFlight .i2cMode .combined 3 0 (.raised .shortReadError) 0, _, inv_of (by decide) trivial, rfl, rfl, rfl, rfl,
      rfl⟩
  · exact ⟨inFlight .closed .perByte 4 0 .dDone 0, _, inv_of (by decide) trivial, rfl, rfl, rfl, rfl, rfl⟩

/-- At the last index below LEN. -/
theorem witness_ReadStoresAtTheCursor :
    ∃ s t, Inv s ∧ step s = .next t ∧ t.rbuf.read 1 ≠ s.rbuf.read 1 :=
  ⟨readingByte, _, readingByte_legal, rfl, by decide⟩

theorem witness_NoTimeoutErrorWithoutTimeout :
    ∃ s t, Inv s ∧ s.params.rxTimeout = none ∧ s.status ≠ .timeoutError ∧ step s = .next t :=
  ⟨receiving [] .timeout (inFlight .i2cMode .perByte 3 2 .rByteRx 1), _, inv_of (by decide) (by decide : 0 < 2), rfl,
    by decide, rfl⟩

theorem witness_UnansweredReceiveHangs : ∃ s, Inv s ∧ s.resetReq = none ∧ owed s ≠ 0 ∧ s.link.recvs = [] :=
  ⟨inFlight .i2cMode .perByte 3 2 .rByteRx 1, inv_of (by decide) (by decide : 0 < 2), rfl, by decide, rfl⟩

/-! ### Host operations -/

theorem witness_AcceptanceLatchesTheRequest :
    idleOpen.busy = false ∧ { idleOpen with strat := .combined }.busy = false := ⟨rfl, rfl⟩

theorem witness_InitOpensAndConfigures :
    (∃ s : State, s.busy = true ∧ s.seq = .iCheck ∧ s.conn ≠ .closed) ∧
    (∃ s : State, s.busy = true ∧ s.seq = .iCheck ∧ s.conn = .closed) ∧
    (∀ a : ControlAnswer, ∃ s : State, s.busy = true ∧ s.seq = .iOpen ∧ s.conn = .closed ∧ s.link.opens = [a]) ∧
    (∀ a : ControlAnswer, ∃ s : State, s.busy = true ∧ s.seq = .iConfig ∧ s.conn ≠ .closed ∧ s.link.configs = [a]) :=
  ⟨⟨inFlight .i2cMode .perByte 0 0 .iCheck 0, rfl, rfl, by decide⟩, ⟨inFlight .closed .perByte 0 0 .iCheck 0, rfl, rfl, rfl⟩,
    fun a => ⟨{ inFlight .closed .perByte 0 0 .iOpen 0 with link := { Link.empty with opens := [a] } }, rfl, rfl, rfl, rfl⟩,
    fun a => ⟨{ inFlight .unknown .perByte 0 0 .iConfig 0 with link := { Link.empty with configs := [a] } }, rfl, rfl,
      unknown_held, rfl⟩⟩

theorem witness_InitEnds :
    (initDone.busy = true ∧ initDone.seq = .iDone) ∧
    (∃ s : State, s.busy = true ∧ s.seq = .aRelease .configurationError ∧ s.conn ≠ .closed) ∧
    (∃ s : State, s.busy = true ∧ s.seq = .aDone .openError) :=
  ⟨⟨rfl, rfl⟩, ⟨inFlight .unknown .perByte 0 0 (.aRelease .configurationError) 0, rfl, rfl, by decide⟩,
    ⟨inFlight .closed .perByte 0 0 (.aDone .openError) 0, rfl, rfl⟩⟩

theorem witness_CloseChecksReleasesCompletes :
    (∃ s : State, s.busy = true ∧ s.seq = .cCheck ∧ s.conn = .closed) ∧
    (∃ s : State, s.busy = true ∧ s.seq = .cCheck ∧ s.conn ≠ .closed) ∧
    (∃ s : State, s.busy = true ∧ s.seq = .cRelease ∧ s.conn ≠ .closed) ∧
    (∃ s : State, s.busy = true ∧ s.seq = .cDone .ok) :=
  ⟨⟨inFlight .closed .perByte 1 0 .cCheck 0, rfl, rfl, rfl⟩, ⟨inFlight .i2cMode .perByte 1 0 .cCheck 0, rfl, rfl, by decide⟩,
    ⟨releasing, rfl, rfl, by decide⟩, ⟨inFlight .closed .perByte 1 0 (.cDone .ok) 0, rfl, rfl⟩⟩

/-- Every check phase is met on an open and on a Closed block, with a length on either side of 126. -/
theorem witness_TransactionChecks :
    ∀ ph ∈ [Seq.wCheck, .xCheck, .rCheck],
      (∃ s : State, s.busy = true ∧ s.conn ≠ .i2cMode ∧ s.seq = ph) ∧
      (∃ s : State, s.busy = true ∧ s.conn = .i2cMode ∧ s.seq = ph ∧ 126 < (operands 127).len.toNat) ∧
      (∃ s : State, s.busy = true ∧ s.conn = .i2cMode ∧ s.seq = ph ∧ (operands 126).len.toNat ≤ 126) := fun ph _ =>
  ⟨⟨inFlight .closed .perByte 2 1 ph 0, rfl, closed_not_i2cMode, rfl⟩,
    ⟨inFlight .i2cMode .perByte 2 127 ph 0, rfl, rfl, rfl, by decide⟩,
    ⟨inFlight .i2cMode .perByte 2 126 ph 0, rfl, rfl, rfl, by decide⟩⟩

theorem witness_TransactionEnds :
    (∃ s : State, s.busy = true ∧ s.seq = .wDone .ok) ∧ (∃ s : State, s.busy = true ∧ s.seq = .rDone .ok) ∧
    (∃ s : State, s.busy = true ∧ s.seq = .xDone .ok) ∧ (raisedWrite.busy = true ∧ raisedWrite.seq = .raised .shortWriteError) :=
  ⟨⟨inFlight .i2cMode .perByte 2 1 (.wDone .ok) 0, rfl, rfl⟩, ⟨inFlight .i2cMode .perByte 3 1 (.rDone .ok) 0, rfl, rfl⟩,
    ⟨inFlight .i2cMode .combined 2 1 (.xDone .ok) 0, rfl, rfl⟩, ⟨rfl, rfl⟩⟩

theorem witness_DelayOnlyCompletes :
    (∃ s : State, s.busy = true ∧ s.seq = .dWait) ∧ (∃ s : State, s.busy = true ∧ s.seq = .dDone) :=
  ⟨⟨inFlight .closed .perByte 4 0 .dWait 0, rfl, rfl⟩, ⟨inFlight .closed .perByte 4 0 .dDone 0, rfl, rfl⟩⟩

theorem witness_HostOperationsFrame :
    ∀ i ∈ [Instr.init (operands 1), .close (operands 1), .write (operands 1), .read (operands 1), .delay (operands 1)],
      (∃ t, exec i State.reset = .next t) ∧
      (∃ s t : State, s.busy = true ∧ exec i s = .next t) := by
  intro i h
  simp only [List.mem_cons, List.not_mem_nil, or_false] at h
  rcases h with rfl | rfl | rfl | rfl | rfl
  · exact ⟨⟨_, rfl⟩, initDone, _, rfl, rfl⟩
  · exact ⟨⟨_, rfl⟩, releasing, _, rfl, rfl⟩
  · exact ⟨⟨_, rfl⟩, inFlight .i2cMode .combined 2 1 .xCheck 0, _, rfl, rfl⟩
  · exact ⟨⟨_, rfl⟩, inFlight .i2cMode .perByte 3 1 (.raised .timeoutError) 0, _, rfl, rfl⟩
  · exact ⟨⟨_, rfl⟩, inFlight .closed .perByte 4 1 .dDone 0, _, rfl, rfl⟩

/-! ### Wire frames -/

/-- The hypotheses of the four parts of an exchange of `k` bytes (R100) can be met in its phases. -/
structure ExchangeMet (i : Instr) (txPh rxPh : Seq) (k : Nat) : Prop where
  whole : ∃ s a rest, ReadyToSend txPh a rest s ∧
    boundTx (frameBytes s.params i).length a = .count (frameBytes s.params i).length
  short : ∃ s a rest, ReadyToSend txPh a rest s ∧
    boundTx (frameBytes s.params i).length a ≠ .count (frameBytes s.params i).length
  ack : ∃ s a rest c, ReadyToReceive rxPh k a rest s ∧ a.result = .count c ∧ k ≤ c ∧
    k ≤ (s.link.rx ++ a.arriving).length
  shortAck : ∃ s a rest c, ReadyToReceive rxPh k a rest s ∧ a.result = .count c ∧
    min c (s.link.rx ++ a.arriving).length < k
  ioError : ∃ s a rest, ReadyToReceive rxPh k a rest s ∧ a.result = .ioError
  timeout : ∃ s a rest, ReadyToReceive rxPh k a rest s ∧ a.result = .timeout ∧ s.params.rxTimeout ≠ none

theorem exchangeMet (i : Instr) (txPh rxPh : Seq) (k : Nat) (h0 : 0 < k) (h : k ≤ 16) : ExchangeMet i txPh rxPh k := by
  have hk : k ≤ (BitVec.ofNat 17 k).toNat := by
    simp
    omega
  refine ⟨⟨sending (.count (frameBytes Params.default i).length) (inFlight .i2cMode .perByte 2 1 txPh 0), _, [],
      ⟨rfl, i2cMode_held, rfl, rfl⟩, ?_⟩,
    ⟨sending (.ioError 0) (inFlight .i2cMode .perByte 2 1 txPh 0), _, [], ⟨rfl, i2cMode_held, rfl, rfl⟩, ?_⟩,
    ⟨receiving (List.replicate k 0x7E#8) (.count k) (inFlight .i2cMode .perByte 2 1 rxPh (BitVec.ofNat 17 k)), _, [], k,
      ⟨rfl, i2cMode_held, hk, rfl⟩, rfl, le_refl k, ?_⟩,
    ⟨receiving [] (.count k) (inFlight .i2cMode .perByte 2 1 rxPh (BitVec.ofNat 17 k)), _, [], k,
      ⟨rfl, i2cMode_held, hk, rfl⟩, rfl, ?_⟩,
    ⟨receiving [] .ioError (inFlight .i2cMode .perByte 2 1 rxPh (BitVec.ofNat 17 k)), _, [], ⟨rfl, i2cMode_held, hk, rfl⟩, rfl⟩,
    ⟨receiving [] .timeout { inFlight .i2cMode .perByte 2 1 rxPh (BitVec.ofNat 17 k) with
        params := { Params.default with rxTimeout := some 0 } }, _, [], ⟨rfl, i2cMode_held, hk, rfl⟩, rfl, ?_⟩⟩
  · simp [sending, inFlight, State.reset, boundTx]
  · simp [boundTx]
  · simp [receiving]
  · simpa [receiving, inFlight, State.reset, Link.empty] using h0
  · simp [receiving]

theorem witness_BinaryHandshake : ExchangeMet .enterBinary .iBinTx .iBinRx 5 := exchangeMet _ _ _ _ (by decide) (by decide)
theorem witness_I2cHandshake : ExchangeMet .enterI2c .iI2cTx .iI2cRx 6 := exchangeMet _ _ _ _ (by decide) (by decide)
theorem witness_ResetTermIsBestEffort :
    (∃ s a rest, ReadyToSend .cResetTx a rest s) ∧ (∃ s a rest, ReadyToSend (.aResetTx .timeoutError) a rest s) :=
  ⟨⟨sending (.count 2) (inFlight .i2cMode .perByte 1 0 .cResetTx 0), _, [], rfl, by decide, rfl, rfl⟩,
    ⟨sending (.ioError 1) (inFlight .unknown .perByte 0 0 (.aResetTx .timeoutError) 0), _, [], rfl, by decide, rfl, rfl⟩⟩
theorem witness_AddrSelectExchange :
    ExchangeMet (.addrSelect 0x7F#7 .write 0x00#8) .wAddrTx .wAddrRx 4 ∧
      ExchangeMet (.addrSelect 0x00#7 .write 0xFF#8) .rAddrTx .rAddrRx 4 :=
  ⟨exchangeMet _ _ _ _ (by decide) (by decide), exchangeMet _ _ _ _ (by decide) (by decide)⟩
theorem witness_ReselectReadExchange : ExchangeMet (.reselectRead 0x77#7) .rReselTx .rReselRx 3 :=
  exchangeMet _ _ _ _ (by decide) (by decide)
theorem witness_BulkHeaderExchange : ExchangeMet (.bulkHdr 15#4) .wHdrTx .wHdrRx 1 :=
  exchangeMet _ _ _ _ (by decide) (by decide)
theorem witness_StopExchange : ExchangeMet .stop .wStopTx .wStopRx 1 := exchangeMet _ _ _ _ (by decide) (by decide)
theorem witness_EndReadExchange : ExchangeMet .endRead .rEndTx .rEndRx 3 := exchangeMet _ _ _ _ (by decide) (by decide)

/-- At payloads of 1 and of 15 bytes, the last of which ends at LEN. -/
theorem witness_BulkPayloadExchange :
    ∀ n ∈ [1, 15], 1 ≤ (List.replicate n 0xA5#8).length ∧ (List.replicate n 0xA5#8).length ≤ 15 ∧
      ExchangeMet (.bulkPayload (List.replicate n 0xA5#8)) .wPayTx .wPayRx n ∧
      ∃ s a rest, ReadyToSend .wPayTx a rest s ∧ s.cursor.toNat + n = s.args.len.toNat := by
  intro n h
  simp only [List.mem_cons, List.not_mem_nil, or_false] at h
  rcases h with rfl | rfl
  · exact ⟨by decide, by decide, exchangeMet _ _ _ _ (by decide) (by decide),
      sending (.count 1) { inFlight .i2cMode .perByte 2 16 .wPayTx 0 with cursor := 15 }, _, [],
      ⟨rfl, by decide, rfl, rfl⟩, rfl⟩
  · exact ⟨by decide, by decide, exchangeMet _ _ _ _ (by decide) (by decide),
      sending (.count 15) { inFlight .i2cMode .perByte 2 15 .wPayTx 0 with cursor := 0 }, _, [],
      ⟨rfl, by decide, rfl, rfl⟩, rfl⟩

theorem witness_ReadByteExchange :
    ExchangeMet .readByte .rByteTx .rByteRx 1 ∧
      ReadyToReceive .rByteRx 1 ⟨[0x60#8], .count 1⟩ [] readingByte ∧
      readingByte.link.rx ++ [0x60#8] = 0x60#8 :: [] ∧ readingByte.cursor.toNat < readingByte.args.len.toNat ∧
      Memory.wf readingByte.rbuf = true :=
  ⟨exchangeMet _ _ _ _ (by decide) (by decide), ⟨rfl, by decide, by decide, rfl⟩, rfl, by decide, by decide⟩

theorem witness_WtrSendsAndChecksStatus :
    ExchangeMet (.wtr 0xFFFF#16 [0xEF#8]) (.xCmdTx true) (.xStatRx true) 1 ∧
      ∀ b ∈ [0x00#8, 0x01#8], ∃ s, ReadyToReceive (.xStatRx true) 1 ⟨[b], .count 1⟩ [] s ∧
        s.link.rx ++ [b] = b :: [] :=
  ⟨exchangeMet _ _ _ _ (by decide) (by decide), fun b _ =>
    ⟨receiving [b] (.count 1) (inFlight .i2cMode .combined 2 1 (.xStatRx true) 1),
      ⟨rfl, i2cMode_held, (by decide : 1 ≤ (1 : BitVec 17).toNat), rfl⟩, rfl⟩⟩

/-- A partial receive, one that ends the phase, one without a byte, an I/O error and a timeout. -/
theorem witness_WtrInputMakesProgress :
    (∀ r ∈ [RxReturn.count 2, .count 0, .ioError, .timeout],
      ∃ s, ReadyToReceive (.xDataRx true) s.chunkN.toNat ⟨[0xA1#8, 0xA2#8], r⟩ [] s ∧ 1 ≤ s.chunkN.toNat ∧
        s.chunkN.toNat ≤ 16 ∧ s.cursor.toNat + 2 ≤ s.args.len.toNat ∧ 2 ≤ s.remain.toNat ∧ 2 = min 2 s.chunkN.toNat ∧
        s.link.rx ++ [0xA1#8, 0xA2#8] = [0xA1#8, 0xA2#8] ++ [] ∧ s.params.rxTimeout ≠ none ∧ Memory.wf s.rbuf = true) ∧
    (∃ s, ReadyToReceive (.xDataRx true) s.chunkN.toNat ⟨[0xA1#8], .count 1⟩ [] s ∧ s.chunkN.toNat = 1 ∧
      s.cursor.toNat + 1 = s.args.len.toNat ∧ s.remain.toNat = 1 ∧ s.link.rx ++ [0xA1#8] = [0xA1#8] ++ []) :=
  ⟨fun r _ => ⟨receiving [0xA1#8, 0xA2#8] r
      { inFlight .i2cMode .combined 3 20 (.xDataRx true) 20 with
        remain := 20, chunkN := 16, params := { Params.default with rxTimeout := some 0 } },
      ⟨rfl, by simp [receiving, inFlight], by simp [receiving, inFlight], rfl⟩, by simp [receiving],
      by simp [receiving], by simp [receiving, inFlight, operands, State.reset], by simp [receiving], by simp [receiving],
      rfl, by simp [receiving], rfl⟩,
    ⟨receiving [0xA1#8] (.count 1)
      { inFlight .i2cMode .combined 3 20 (.xDataRx true) 1 with remain := 1, chunkN := 1, cursor := 19 },
      ⟨rfl, by decide, by decide, rfl⟩, rfl, rfl, rfl, rfl⟩⟩

theorem witness_NonStoringFramesFrame :
    (∃ s t, exec .enterBinary s = .next t ∧ s ≠ t) ∧ (∃ s t, exec .enterI2c s = .next t ∧ s ≠ t) ∧
    (∃ s t, exec (.bulkHdr 1#4) s = .next t ∧ s ≠ t) ∧ (∃ s t, exec .stop s = .next t ∧ s ≠ t) ∧
    (∃ s t, exec .endRead s = .next t ∧ s ≠ t) ∧ (∃ s t, exec (.reselectRead 1#7) s = .next t ∧ s ≠ t) ∧
    (∃ s t, exec (.addrSelect 1#7 .write 2#8) s = .next t ∧ s ≠ t) ∧
    (∃ s t, exec (.bulkPayload [1#8]) s = .next t ∧ s ≠ t) ∧ (∃ s t, exec .resetTerm s = .next t ∧ s ≠ t) :=
  ⟨⟨receiving binaryAck (.count 5) (inFlight .unknown .perByte 0 0 .iBinRx 5), _, rfl, by decide⟩,
    ⟨receiving i2cAck (.count 6) (inFlight .binaryMode .perByte 0 0 .iI2cRx 6), _, rfl, by decide⟩,
    ⟨sending (.count 1) (inFlight .i2cMode .perByte 2 1 .wHdrTx 0), _, rfl, by decide⟩, ⟨sendingStop, _, rfl, by decide⟩,
    ⟨sending (.count 2) (inFlight .i2cMode .perByte 3 1 .rEndTx 0), _, rfl, by decide⟩,
    ⟨sending (.count 3) (inFlight .i2cMode .perByte 3 1 .rReselTx 0), _, rfl, by decide⟩,
    ⟨sending (.count 4) (inFlight .i2cMode .perByte 2 1 .wAddrTx 0), _, rfl, by decide⟩,
    ⟨sending (.count 1) (inFlight .i2cMode .perByte 2 1 .wPayTx 0), _, rfl, by decide⟩,
    ⟨sending (.count 2) (inFlight .i2cMode .perByte 1 1 .cResetTx 0), _, rfl, by decide⟩⟩

theorem witness_ReadByteFrame : ∃ t, exec .readByte readingByte = .next t ∧ t.rbuf.read 1 = 0x60#8 := ⟨_, rfl, by decide⟩

theorem witness_WtrFrame :
    ∃ t, exec (.wtr 20 [0xEF#8]) readingInput = .next t ∧ t.abuf = [0xA1#8, 0xA2#8] ∧ t.rbuf.read 1 = 0xA2#8 :=
  ⟨_, rfl, rfl, by decide⟩

/-! ### Whole operations -/

theorem ready (op : BitVec 3) (len : Half) (s : State) (h1 : s.busy = false) (h2 : s.await = 0) (h3 : s.resetReq = none) :
    ReadyFor { op := op, args := operands len } (asking op len s) := ⟨h1, h2, rfl, h3⟩

theorem witness_DelayRuns :
    ReadyFor { op := 4, args := operands 0 } (asking 4 0 State.reset) ∧ (asking 4 0 State.reset).seq = .idle :=
  ⟨ready _ _ _ rfl rfl rfl, rfl⟩

theorem witness_CloseRuns :
    (∃ s, ReadyFor { op := 1, args := operands 0 } s ∧ s.seq = .idle ∧ s.conn = .closed) ∧
    (∃ s, ReadyFor { op := 1, args := operands 0 } s ∧ s.seq = .idle ∧ s.conn = .i2cMode ∧ s.link.sends = [.ioError 1]) :=
  ⟨⟨asking 1 0 State.reset, ready _ _ _ rfl rfl rfl, rfl, rfl⟩,
    ⟨asking 1 0 (sending (.ioError 1) idleOpen), ready _ _ _ rfl rfl rfl, rfl, rfl, rfl⟩⟩

/-- A link that answers `open` and `configure`, every frame in full, and every receive with the next acknowledgment. -/
def linkFor (frames acks : List (List Byte)) : Link :=
  { rx := [], opens := [.ok], configs := [.ok], sends := frames.map (fun f => .count f.length) ++ [],
    recvs := acks.map (fun a => RxAnswer.mk a (.count a.length)) ++ [], wire := [] }

theorem witness_InitRuns :
    ∃ s, ReadyFor { op := 0, args := operands 0 } s ∧ s.conn = .closed ∧ s.link.opens = [.ok] ∧ s.link.configs = [.ok] ∧
      AnswersWell [frameBytes s.params .enterBinary, frameBytes s.params .enterI2c]
        [[0x42#8, 0x42#8, 0x49#8, 0x4F#8, 0x31#8], [0x49#8, 0x32#8, 0x43#8, 0x31#8, 0x01#8, 0x01#8]] [] [] s.link :=
  ⟨asking 0 0 { State.reset with
      link := linkFor [frameBytes Params.default .enterBinary, frameBytes Params.default .enterI2c]
        [[0x42#8, 0x42#8, 0x49#8, 0x4F#8, 0x31#8], [0x49#8, 0x32#8, 0x43#8, 0x31#8, 0x01#8, 0x01#8]] },
    ready _ _ _ rfl rfl rfl, rfl, rfl, rfl, ⟨rfl, rfl, rfl⟩⟩

theorem witness_FailedNegotiationCloses :
    ∃ s a rest, s.resetReq = none ∧ s.busy = true ∧ ReadyToSend (.aResetTx .protocolMismatchError) a rest s :=
  ⟨sending (.count 0) (inFlight .binaryMode .perByte 0 0 (.aResetTx .protocolMismatchError) 0), _, [], rfl, rfl,
    ⟨rfl, by decide, rfl, rfl⟩⟩

theorem witness_RefusedTransactionsSendNothing :
    (∃ s, s.seq = .idle ∧ ReadyFor { op := 2, args := operands 127 } s ∧ s.conn = .i2cMode ∧
      126 < (operands 127).len.toNat) ∧
    (∃ s, s.seq = .idle ∧ ReadyFor { op := 2, args := operands 1 } s ∧ s.conn = .closed) ∧
    (∃ s, s.seq = .idle ∧ ReadyFor { op := 3, args := operands 1 } s ∧ s.conn = .closed) :=
  ⟨⟨asking 2 127 idleOpen, rfl, ready _ _ _ rfl rfl rfl, rfl, by decide⟩,
    ⟨asking 2 1 State.reset, rfl, ready _ _ _ rfl rfl rfl, rfl⟩,
    ⟨asking 3 1 State.reset, rfl, ready _ _ _ rfl rfl rfl, rfl⟩⟩

/-- An adapter that echoes every frame, at lengths 0 and 126. -/
theorem witness_PerByteWriteRuns :
    ∀ len ∈ [(0 : Half), 126], ∃ s acks, ReadyFor { op := 2, args := operands len } s ∧ s.conn = .i2cMode ∧
      s.strat = .perByte ∧ (operands len).len.toNat ≤ 126 ∧
      acks.map List.length = (writeFrames s.params (operands len) s.wbuf).map List.length ∧
      AnswersWell (writeFrames s.params (operands len) s.wbuf) acks [] [] s.link := by
  intro len h
  refine ⟨asking 2 len { idleOpen with
      link := linkFor (writeFrames Params.default (operands len) []) (writeFrames Params.default (operands len) []) },
    writeFrames Params.default (operands len) [], ready _ _ _ rfl rfl rfl, rfl, rfl, ?_, rfl, ⟨rfl, rfl, rfl⟩⟩
  simp only [List.mem_cons, List.not_mem_nil, or_false] at h
  rcases h with rfl | rfl <;> decide

/-- The source's read scenario (95 S2). -/
theorem witness_PerByteReadRuns :
    ∃ s, ReadyFor { op := 3, args := operands 2 } s ∧ s.conn = .i2cMode ∧ s.strat = .perByte ∧
      [0x55#8, 0x60#8].length = (operands 2).len.toNat ∧
      AnswersWell (readFrames s.params (operands 2))
        ([0#8, 0#8, 0#8, 0#8] :: [0#8, 0#8, 0#8] :: ([0x55#8, 0x60#8].map (fun b => [b]) ++ [[0#8, 0#8, 0#8]])) [] []
        s.link ∧ Memory.wf s.rbuf = true :=
  ⟨asking 3 2 { idleOpen with
      link := linkFor (readFrames Params.default (operands 2))
        ([0#8, 0#8, 0#8, 0#8] :: [0#8, 0#8, 0#8] :: ([0x55#8, 0x60#8].map (fun b => [b]) ++ [[0#8, 0#8, 0#8]])) },
    ready _ _ _ rfl rfl rfl, rfl, rfl, rfl, ⟨rfl, rfl, rfl⟩, rfl⟩

/-- A status byte of either kind. -/
theorem witness_CombinedWriteRuns :
    ∀ st ∈ [0x00#8, 0x01#8], ∃ s, ReadyFor { op := 2, args := operands 126 } s ∧ s.conn = .i2cMode ∧
      s.strat = .combined ∧ (operands 126).len.toNat ≤ 126 ∧
      AnswersWell [frameBytes s.params (wtrOfWrite (operands 126) s.wbuf)] [[st]] [] [] s.link := fun st _ =>
  ⟨asking 2 126 { idleOpen with
      strat := .combined, link := linkFor [frameBytes Params.default (wtrOfWrite (operands 126) [])] [[st]] },
    ready _ _ _ rfl rfl rfl, rfl, rfl, by decide, ⟨rfl, rfl, rfl⟩⟩

/-- Seventeen bytes in parts of 1 and 16, and no byte in no part. -/
theorem witness_CombinedReadRuns :
    ∀ parts ∈ [([] : List (List Byte)), [[0x55#8], List.replicate 16 0x60#8]],
      ∃ s len, ReadyFor { op := 3, args := operands len } s ∧ s.conn = .i2cMode ∧ s.strat = .combined ∧
        (∀ part ∈ parts, 1 ≤ part.length ∧ part.length ≤ 16) ∧ parts.flatten.length = (operands len).len.toNat ∧
        AnswersWell [frameBytes s.params (wtrOfReadPointer (operands len)), frameBytes s.params (wtrOfReadData (operands len))]
          ([0x01#8] :: [0x01#8] :: parts) [] [] s.link ∧ Memory.wf s.rbuf = true := by
  intro parts h
  simp only [List.mem_cons, List.not_mem_nil, or_false] at h
  rcases h with rfl | rfl
  · exact ⟨asking 3 0 { idleOpen with
        strat := .combined,
        link := linkFor [frameBytes Params.default (wtrOfReadPointer (operands 0)),
          frameBytes Params.default (wtrOfReadData (operands 0))] ([0x01#8] :: [0x01#8] :: []) }, 0,
      ready _ _ _ rfl rfl rfl, rfl, rfl, by decide, rfl, ⟨rfl, rfl, rfl⟩, rfl⟩
  · exact ⟨asking 3 17 { idleOpen with
        strat := .combined,
        link := linkFor [frameBytes Params.default (wtrOfReadPointer (operands 17)),
          frameBytes Params.default (wtrOfReadData (operands 17))]
          ([0x01#8] :: [0x01#8] :: [[0x55#8], List.replicate 16 0x60#8]) }, 17,
      ready _ _ _ rfl rfl rfl, rfl, rfl, by decide, rfl, ⟨rfl, rfl, rfl⟩, rfl⟩

end Sys2Proof.Tests
end

section
/-!
PROOFS. What one step does to the registers the host sees and to the latched operands, said once for every instruction
(10_state R13 to R18, R25; 40_transport_arbiter R103, R104), and the permission of a receive that is due (R94, R98).
-/
namespace Sys2Proof.Machine

/-! ## The due instruction (R16, R103) -/

theorem step_of_fetch {s : State} {i : Instr} (hr : s.resetReq = none) (hf : fetch s = some i) :
    step s = exec i s := by
  simp [step, hr, hf]

theorem fetch_of_busy {s : State} (hb : s.busy = true) : fetch s = phaseInstr s := by
  simp [fetch, hb]

theorem fetch_of_idle {s : State} (hb : s.busy = false) : fetch s = s.port.map decodeRequest := by
  simp [fetch, hb]

theorem wtrOf_wtr (last : Bool) (s : State) : ∃ r out, wtrOf last s = .wtr r out := by
  unfold wtrOf
  split
  · exact ⟨_, _, rfl⟩
  · split <;> exact ⟨_, _, rfl⟩

@[simp] theorem wtrOf_ne_init (last : Bool) (s : State) (q : Operands) : wtrOf last s ≠ .init q := by
  obtain ⟨r, out, h⟩ := wtrOf_wtr last s
  simp [h]

@[simp] theorem transactionOf_ne_init (s : State) (q : Operands) : transactionOf s ≠ .init q := by
  unfold transactionOf
  split <;> exact nofun

/-- SEQ calls for INIT only with the latched operands. -/
theorem phaseInstr_init {s : State} {q : Operands} (h : phaseInstr s = some (.init q)) : q = s.args := by
  unfold phaseInstr at h
  split at h <;> simp_all [addrSelectOf]

/-! ## Steps that leave the host's view alone -/

/-- The phases in which a negotiation moves CONN forward (R11). -/
def negotiates : Seq → Bool
  | .iOpen | .iBinRx | .iI2cRx => true
  | _ => false

/-- Nothing but SEQ, its working registers, RBUF and the link has changed; CONN only where a negotiation moves it. -/
structure Quiet (s t : State) : Prop where
  params : t.params = s.params := by simp
  strat  : t.strat = s.strat := by simp
  status : t.status = s.status := by simp
  busy   : t.busy = s.busy := by simp
  desync : t.desync = s.desync := by simp
  op     : t.op = s.op := by simp
  args   : t.args = s.args := by simp
  port   : t.port = s.port := by simp
  wbuf   : t.wbuf = s.wbuf := by simp
  conn   : t.conn = s.conn ∨ negotiates s.seq = true := by simp

theorem sendFrame_quiet {cls : ExchangeClass} {bytes : List Byte} {k : BitVec 17} {ph : Seq} {s t : State}
    (h : sendFrame cls bytes k ph s = .next t) : Quiet s t := by
  obtain rfl | ⟨r, l, -, ⟨-, rfl⟩ | ⟨-, rfl⟩⟩ := sendFrame_shape h
  · exact {}
  · exact {}
  · exact {}

theorem sendBestEffort_quiet {bytes : List Byte} {ph : Seq} {s t : State} (h : sendBestEffort bytes ph s = .next t) :
    Quiet s t := by
  obtain rfl | ⟨r, l, -, rfl⟩ := sendBestEffort_shape h
  · exact {}
  · exact {}

theorem RaisedBy.quiet {cls : ExchangeClass} {n : Nat} {e : Status} {s t : State} (h : RaisedBy cls n e s t) :
    Quiet s t := by
  obtain ⟨r, ab, aw, l, e', -, -, rfl⟩ := h
  exact {}

theorem receiveExactly_quiet {cls : ExchangeClass} {k : Nat} {go : State → Out} {s t : State}
    (hgo : ∀ a aw l, go { s with abuf := a, await := aw, link := l } = .next t → Quiet s t)
    (h : receiveExactly cls k go s = .next t) : Quiet s t := by
  obtain rfl | hraise | ⟨a, aw, l, -, -, hnext⟩ := receiveExactly_shape h
  · exact {}
  · exact hraise.quiet
  · exact hgo a aw l hnext

theorem receiveAck_quiet {cls : ExchangeClass} {k : Nat} {after : State → State} {s t : State}
    (hafter : ∀ a l, Quiet s (after { s with abuf := a, await := 0, link := l }))
    (h : receiveAck cls k (fun u => .next (after u)) s = .next t) : Quiet s t := by
  refine receiveExactly_quiet (fun a aw l hnext => ?_) h
  cases hnext
  exact hafter a l

theorem receiveLiteral_quiet {literal : List Byte} {after : State → State} {s t : State}
    (hafter : ∀ a l, Quiet s (after { s with abuf := a, await := 0, link := l }))
    (h : receiveLiteral literal (fun u => .next (after u)) s = .next t) : Quiet s t := by
  obtain rfl | hraise | ⟨aw, l, -, hnext⟩ := receiveLiteral_shape h
  · exact {}
  · exact hraise.quiet
  · cases hnext
    exact hafter literal l

/-! ## The wire frames -/

theorem execEnterBinary_quiet {s t : State} (h : execEnterBinary s = .next t) : Quiet s t := by
  unfold execEnterBinary at h
  split at h
  · exact sendFrame_quiet h
  · rename_i hseq
    exact receiveLiteral_quiet (fun _ _ => { conn := .inr (by rw [hseq]; rfl) }) h
  · cases h

theorem execEnterI2c_quiet {s t : State} (h : execEnterI2c s = .next t) : Quiet s t := by
  unfold execEnterI2c at h
  split at h
  · exact sendFrame_quiet h
  · rename_i hseq
    exact receiveLiteral_quiet (fun _ _ => { conn := .inr (by rw [hseq]; rfl) }) h
  · cases h

theorem execResetTerm_quiet {s t : State} (h : execResetTerm s = .next t) : Quiet s t := by
  unfold execResetTerm at h
  split at h
  · exact sendBestEffort_quiet h
  · exact sendBestEffort_quiet h
  · cases h

theorem execAddrSelect_quiet {dev : BitVec 7} {dir : Direction} {reg : Byte} {s t : State}
    (h : execAddrSelect dev dir reg s = .next t) : Quiet s t := by
  unfold execAddrSelect at h
  split at h
  · exact sendFrame_quiet h
  · exact receiveAck_quiet (fun _ _ => {}) h
  · exact sendFrame_quiet h
  · exact receiveAck_quiet (fun _ _ => {}) h
  · cases h

theorem execReselectRead_quiet {dev : BitVec 7} {s t : State} (h : execReselectRead dev s = .next t) : Quiet s t := by
  unfold execReselectRead at h
  split at h
  · exact sendFrame_quiet h
  · exact receiveAck_quiet (fun _ _ => {}) h
  · cases h

theorem execBulkHdr_quiet {n : BitVec 4} {s t : State} (h : execBulkHdr n s = .next t) : Quiet s t := by
  unfold execBulkHdr at h
  split at h
  · exact sendFrame_quiet h
  · exact receiveAck_quiet (fun _ _ => {}) h
  · cases h

theorem execBulkPayload_quiet {data : List Byte} {s t : State} (h : execBulkPayload data s = .next t) :
    Quiet s t := by
  unfold execBulkPayload at h
  split at h
  · split at h
    · cases h
    · exact sendFrame_quiet h
  · exact receiveAck_quiet (fun _ _ => {}) h
  · cases h

theorem execStop_quiet {s t : State} (h : execStop s = .next t) : Quiet s t := by
  unfold execStop at h
  split at h
  · exact sendFrame_quiet h
  · exact receiveAck_quiet (fun _ _ => {}) h
  · cases h

theorem execReadByte_quiet {s t : State} (h : execReadByte s = .next t) : Quiet s t := by
  unfold execReadByte at h
  split at h
  · exact sendFrame_quiet h
  · refine receiveExactly_quiet (fun a aw l hstore => ?_) h
    unfold storeByte at hstore
    split at hstore
    · cases hstore
      exact {}
    · cases hstore
  · cases h

theorem execEndRead_quiet {s t : State} (h : execEndRead s = .next t) : Quiet s t := by
  unfold execEndRead at h
  split at h
  · exact sendFrame_quiet h
  · exact receiveAck_quiet (fun _ _ => {}) h
  · cases h

theorem execWtr_quiet {r : Half} {out : List Byte} {s t : State} (h : execWtr r out s = .next t) : Quiet s t := by
  unfold execWtr at h
  split at h
  · exact sendFrame_quiet h
  · refine receiveExactly_quiet (fun a aw l hstatus => ?_) h
    unfold checkStatus at hstatus
    split at hstatus
    · cases hstatus
      exact {}
    · cases hstatus
      exact {}
  · obtain rfl | hraise | ⟨a, aw, l, -, -, hstore⟩ := receiveInput_shape h
    · exact {}
    · exact hraise.quiet
    · unfold storeInput at hstore
      split at hstore
      · cases hstore
      · cases hstore
        exact {}
  · cases h

/-! ## What a step does -/

/-- The ways a step changes the host's view: a reset (R231), acceptance (R103), completion (R104), completion of a
successful INIT (R124) and of a failed WRITE or READ (R214), and the release of the transport (R95). -/
inductive Effect (s t : State) : Prop
  | reset (backlog : List Byte) (due : s.resetReq = some backlog) (next : t = applyReset backlog s)
  | quiet (kept : Quiet s t)
  | accepted (code : BitVec 3) (q : Operands) (first : Seq) (idle : s.busy = false) (next : t = accept code q first s)
  | completed (r : Status) (running : s.busy = true) (next : t = complete r s)
  | initialised (running : s.busy = true) (phase : s.seq = .iDone)
      (next : t = complete .ok { s with strat := s.args.strategy, desync := false })
  | aborted (e : Status) (running : s.busy = true) (phase : s.seq = .raised e) (next : t = abortTransaction e s)
  | released (ph : Seq) (l : Link) (next : t = { s with conn := .closed, desync := false, seq := ph, link := l })

theorem execInit_effect {q : Operands} {s t : State} (hq : s.busy = true → q = s.args)
    (h : execInit q s = .next t) : Effect s t := by
  unfold execInit at h
  split at h
  · cases h
    exact .accepted _ _ _ ‹_› rfl
  · rename_i hbusy
    have hb : s.busy = true := by simpa using hbusy
    split at h
    · cases h
      exact .quiet {}
    · rename_i hseq
      split at h
      · cases h
      · cases h
        exact .quiet {}
      · obtain ⟨-, rest, -, rfl⟩ := openTransport_returned ‹_›
        cases h
        exact .quiet { conn := .inr (by rw [hseq]; rfl) }
      · obtain ⟨-, rest, -, rfl⟩ := openTransport_returned ‹_›
        cases h
        exact .quiet {}
    · split at h
      · cases h
      · cases h
        exact .quiet {}
      · obtain ⟨-, rest, -, rfl⟩ := configureLine_returned ‹_›
        cases h
        exact .quiet {}
      · obtain ⟨-, rest, -, rfl⟩ := configureLine_returned ‹_›
        cases h
        exact .quiet {}
    · cases h
      exact .initialised hb ‹_› (by rw [hq hb])
    · split at h
      · cases h
      · cases h
        exact .quiet {}
      · obtain ⟨-, rfl⟩ := releaseTransport_returned ‹_›
        cases h
        exact .released _ _ rfl
    · cases h
      exact .completed _ hb rfl
    · cases h

theorem execClose_effect {q : Operands} {s t : State} (h : execClose q s = .next t) : Effect s t := by
  unfold execClose at h
  split at h
  · cases h
    exact .accepted _ _ _ ‹_› rfl
  · rename_i hbusy
    split at h
    · cases h
      exact .quiet {}
    · split at h
      · cases h
      · cases h
        exact .quiet {}
      · obtain ⟨-, rfl⟩ := releaseTransport_returned ‹_›
        cases h
        exact .released _ _ rfl
    · cases h
      exact .completed _ (by simpa using hbusy) rfl
    · cases h

theorem afterCheck_quiet (result : Option Status) (done : Status → Seq) (go : Seq) (s : State) :
    Quiet s (afterCheck result done go s) := by
  unfold afterCheck
  split
  · exact {}
  · exact {}

theorem afterCombinedCheck_quiet (result : Option Status) (last : Bool) (s : State) :
    Quiet s (afterCombinedCheck result last s) := by
  unfold afterCombinedCheck
  split
  · exact {}
  · exact {}

theorem execWrite_effect {q : Operands} {s t : State} (h : execWrite q s = .next t) : Effect s t := by
  unfold execWrite at h
  split at h
  · cases h
    exact .accepted _ _ _ ‹_› rfl
  · rename_i hbusy
    have hb : s.busy = true := by simpa using hbusy
    split at h <;> cases h
    · exact .quiet (afterCheck_quiet _ _ _ s)
    · exact .quiet (afterCombinedCheck_quiet _ _ s)
    · exact .completed _ hb rfl
    · exact .completed _ hb rfl
    · exact .aborted _ hb ‹_› rfl

theorem execRead_effect {q : Operands} {s t : State} (h : execRead q s = .next t) : Effect s t := by
  unfold execRead at h
  split at h
  · cases h
    exact .accepted _ _ _ ‹_› rfl
  · rename_i hbusy
    have hb : s.busy = true := by simpa using hbusy
    split at h <;> cases h
    · exact .quiet (afterCheck_quiet _ _ _ s)
    · exact .quiet (afterCombinedCheck_quiet _ _ s)
    · exact .completed _ hb rfl
    · exact .completed _ hb rfl
    · exact .aborted _ hb ‹_› rfl

theorem execDelay_effect {q : Operands} {s t : State} (h : execDelay q s = .next t) : Effect s t := by
  unfold execDelay at h
  split at h
  · cases h
    exact .accepted _ _ _ ‹_› rfl
  · rename_i hbusy
    split at h <;> cases h
    · exact .quiet {}
    · exact .completed _ (by simpa using hbusy) rfl

theorem exec_effect {i : Instr} {s t : State} (hf : fetch s = some i) (h : exec i s = .next t) : Effect s t := by
  cases i with
  | init q => exact execInit_effect (fun hb => phaseInstr_init (by rw [← fetch_of_busy hb, hf])) h
  | close q => exact execClose_effect h
  | write q => exact execWrite_effect h
  | read q => exact execRead_effect h
  | delay q => exact execDelay_effect h
  | reservedOp5 q => cases h
  | reservedOp6 q => cases h
  | reservedOp7 q => cases h
  | enterBinary => exact .quiet (execEnterBinary_quiet h)
  | enterI2c => exact .quiet (execEnterI2c_quiet h)
  | addrSelect dev dir reg => exact .quiet (execAddrSelect_quiet h)
  | reselectRead dev => exact .quiet (execReselectRead_quiet h)
  | bulkHdr n => exact .quiet (execBulkHdr_quiet h)
  | bulkPayload data => exact .quiet (execBulkPayload_quiet h)
  | stop => exact .quiet (execStop_quiet h)
  | readByte => exact .quiet (execReadByte_quiet h)
  | endRead => exact .quiet (execEndRead_quiet h)
  | resetTerm => exact .quiet (execResetTerm_quiet h)
  | wtr r out => exact .quiet (execWtr_quiet h)

/-- Every step has one of the effects above. -/
theorem step_effect {s t : State} (h : step s = .next t) : Effect s t := by
  cases hr : s.resetReq with
  | some backlog =>
    rw [step_of_reset hr] at h
    cases h
    exact .reset backlog hr rfl
  | none =>
    obtain ⟨-, rfl⟩ | ⟨i, hf, hexec⟩ := step_next hr h
    · exact .quiet {}
    · exact exec_effect hf hexec

/-- The abort phase always ends a transaction with DESYNC set (R214). -/
theorem step_of_raised {s : State} {e : Status} (hr : s.resetReq = none) (hb : s.busy = true)
    (hseq : s.seq = .raised e) : step s = .next (abortTransaction e s) := by
  have hf : fetch s = some (transactionOf s) := by simp [fetch_of_busy hb, phaseInstr, hseq]
  rw [step_of_fetch hr hf]
  unfold transactionOf
  split
  · simp [exec, execWrite, hb, hseq]
  · simp [exec, execRead, hb, hseq]

/-! ## A receive that is due (R94, R98) -/

/-- The number of bytes the receive of SEQ's phase asks for. -/
def receiveSize (s : State) : Nat :=
  match s.seq with
  | .xStatRx _ => 1
  | .xDataRx _ => s.chunkN.toNat
  | _ => owed s

theorem payloadOf_length (s : State) : (payloadOf s).length = s.chunkN.toNat := by
  simp [payloadOf]

theorem writeChunk_toNat (cursor len : Half) :
    (writeChunk cursor len).toNat = min 15 (len.toNat - cursor.toNat) := by
  simp only [writeChunk, Config.chunkW, BitVec.toNat_ofNat]
  omega

theorem inputChunk_toNat (remain : Half) : (inputChunk remain).toNat = min 16 remain.toNat := by
  simp only [inputChunk, Config.chunkR, BitVec.toNat_ofNat]
  omega

/-- A state that is owed bytes is busy. -/
theorem Inv.busy_of_owed {s : State} (hinv : Inv s) (ho : owed s ≠ 0) : s.busy = true := by
  refine hinv.busy_iff_running.mpr fun hidle => ho ?_
  simp [owed, hidle]

/-- Bytes are owed only in phases that hold the transport (R96). -/
theorem Inv.held_of_owed {s : State} (hinv : Inv s) (ho : owed s ≠ 0) : s.conn ≠ .closed := by
  have hconn := hinv.conn_legal
  intro hclosed
  unfold owed at ho
  split at ho <;> simp_all [connAt]

theorem Inv.receiveSize_ne_zero {s : State} (hinv : Inv s) (ho : owed s ≠ 0) : receiveSize s ≠ 0 := by
  have hcount := hinv.counters
  unfold receiveSize
  split
  · exact one_ne_zero
  · rename_i hseq
    simp only [countersOk, hseq] at hcount
    obtain ⟨hremain, -, hchunk⟩ := hcount
    have hpos : s.remain.toNat ≠ 0 := fun h => hremain (BitVec.eq_of_toNat_eq h)
    simp [hchunk, inputChunk_toNat, hpos]
  · exact ho

theorem Inv.receiveSize_le_owed {s : State} (hinv : Inv s) : receiveSize s ≤ owed s := by
  have hcount := hinv.counters
  unfold receiveSize
  split
  · rename_i hseq
    simp [owed, hseq]
  · rename_i hseq
    simp only [countersOk, hseq] at hcount
    simp [owed, hseq, hcount, inputChunk_toNat]
  · exact le_rfl

theorem Inv.receiveSize_le_chunkR {s : State} (hinv : Inv s) : receiveSize s ≤ Config.chunkR := by
  have hcount := hinv.counters
  unfold receiveSize
  split
  · decide
  · rename_i hseq
    simp only [countersOk, hseq] at hcount
    simp [hcount, inputChunk_toNat, Config.chunkR]
  · unfold owed
    split <;> simp_all [countersOk, writeChunk_toNat, Config.chunkR]

theorem receive_of_no_answer {n : Nat} {s : State} (hheld : s.conn ≠ .closed) (h0 : n ≠ 0)
    (h16 : n ≤ Config.chunkR) (ha : n ≤ s.await.toNat) (hr : s.link.recvs = []) : receive n s = .waiting := by
  have hp : ¬ (n = 0 ∨ Config.chunkR < n ∨ s.await.toNat < n) := by omega
  simp [receive, hheld, hp, hr]

theorem receiveExactly_of_waiting {cls : ExchangeClass} {k : Nat} {go : State → Out} {s : State}
    (hw : receive k s = .waiting) : receiveExactly cls k go s = .next s := by
  simp [receiveExactly, hw]

theorem receiveAck_of_waiting {cls : ExchangeClass} {k : Nat} {go : State → Out} {s : State}
    (hw : receive k s = .waiting) : receiveAck cls k go s = .next s :=
  receiveExactly_of_waiting hw

theorem receiveLiteral_of_waiting {literal : List Byte} {go : State → Out} {s : State}
    (hw : receive literal.length s = .waiting) : receiveLiteral literal go s = .next s :=
  receiveAck_of_waiting hw

theorem receiveInput_of_waiting {last : Bool} {s : State} (hw : receive s.chunkN.toNat s = .waiting) :
    receiveInput last s = .next s := by
  simp [receiveInput, hw]


/-- In a phase that is owed bytes the due instruction does nothing while its receive waits. -/
theorem exec_of_receive_waiting {s : State} (ho : owed s ≠ 0) (hw : receive (receiveSize s) s = .waiting) :
    ∃ i, phaseInstr s = some i ∧ exec i s = .next s := by
  cases hseq : s.seq <;> simp only [owed, receiveSize, phaseInstr, hseq, ne_eq, not_true_eq_false] at ho hw ⊢
  case iBinRx => exact ⟨_, rfl, by simp only [exec, execEnterBinary, hseq]; exact receiveLiteral_of_waiting hw⟩
  case iI2cRx => exact ⟨_, rfl, by simp only [exec, execEnterI2c, hseq]; exact receiveLiteral_of_waiting hw⟩
  case wAddrRx =>
    exact ⟨_, rfl, by simp only [exec, addrSelectOf, execAddrSelect, hseq]; exact receiveAck_of_waiting hw⟩
  case wHdrRx => exact ⟨_, rfl, by simp only [exec, execBulkHdr, hseq]; exact receiveAck_of_waiting hw⟩
  case wPayRx =>
    rw [← payloadOf_length] at hw
    exact ⟨_, rfl, by simp only [exec, execBulkPayload, hseq]; exact receiveAck_of_waiting hw⟩
  case wStopRx => exact ⟨_, rfl, by simp only [exec, execStop, hseq]; exact receiveAck_of_waiting hw⟩
  case rAddrRx =>
    exact ⟨_, rfl, by simp only [exec, addrSelectOf, execAddrSelect, hseq]; exact receiveAck_of_waiting hw⟩
  case rReselRx => exact ⟨_, rfl, by simp only [exec, execReselectRead, hseq]; exact receiveAck_of_waiting hw⟩
  case rByteRx => exact ⟨_, rfl, by simp only [exec, execReadByte, hseq]; exact receiveExactly_of_waiting hw⟩
  case rEndRx => exact ⟨_, rfl, by simp only [exec, execEndRead, hseq]; exact receiveAck_of_waiting hw⟩
  case xStatRx last =>
    obtain ⟨r, out, hwtr⟩ := wtrOf_wtr last s
    exact ⟨_, rfl, by simp only [hwtr, exec, execWtr, hseq]; exact receiveExactly_of_waiting hw⟩
  case xDataRx last =>
    obtain ⟨r, out, hwtr⟩ := wtrOf_wtr last s
    exact ⟨_, rfl, by simp only [hwtr, exec, execWtr, hseq]; exact receiveInput_of_waiting hw⟩

end Sys2Proof.Machine
end

section
/-!
PROOFS. The statements about the registers and the due instruction (10_state).
-/
namespace Sys2Proof.Machine

/-- Settles O4, by the three outcomes of `fetch`. -/
theorem stepRunsTheDueInstruction : Obligations.StepRunsTheDueInstruction := by
  refine ⟨fun s i hr hb hi => ?_, fun s r hr hb hp => ?_, fun s hr hb hp => ?_⟩
  · exact step_of_fetch hr (by rw [fetch_of_busy hb, hi])
  · exact step_of_fetch hr (by rw [fetch_of_idle hb, hp]; rfl)
  · simp [step, hr, fetch_of_idle hb, hp]

/-- Settles O20: only a completion writes STATUS, and every completion leaves SEQ idle and nothing owed. -/
theorem statusIsWrittenAtCompletion : Obligations.StatusIsWrittenAtCompletion := by
  intro s t hr h
  cases step_effect h with
  | reset backlog due next => simp [hr] at due
  | quiet kept => simp +contextual [kept.status, kept.busy]
  | accepted code q first idle next => simp [next]
  | completed r running next => simp [next, running]
  | initialised running phase next => simp [next, running]
  | aborted e running phase next => simp [next, running]
  | released ph l next => simp +contextual [next]

/-- Settles O21: no effect of a step touches what the host owns, and but for a reset none touches what acceptance has
latched. -/
theorem operandsStayLatched : Obligations.OperandsStayLatched := by
  intro s t h
  cases step_effect h with
  | reset backlog due next => simp [next, due]
  | quiet kept => simp [kept.params, kept.wbuf, kept.port, kept.op, kept.args]
  | accepted code q first idle next => simp [next, idle]
  | completed r running next => simp [next]
  | initialised running phase next => simp [next]
  | aborted e running phase next => simp [next]
  | released ph l next => simp [next]

/-- Settles O22: of the effects of a step only a reset and a successful INIT write STRAT. -/
theorem strategyChangesOnlyAtInit : Obligations.StrategyChangesOnlyAtInit := by
  intro s t hinv h hne
  cases step_effect h with
  | reset backlog due next => exact .inl (by simp [due])
  | quiet kept => exact absurd kept.strat hne
  | accepted code q first idle next => exact absurd (by simp [next]) hne
  | completed r running next => exact absurd (by simp [next]) hne
  | initialised running phase next =>
    have hop : s.op = 0 := by simpa [opAt, phase] using hinv.op_legal
    have hconn : s.conn = .i2cMode := by simpa [connAt, phase] using hinv.conn_legal
    exact .inr (by simp [next, hop, phase, hconn])
  | aborted e running phase next => exact absurd (by simp [next]) hne
  | released ph l next => exact absurd (by simp [next]) hne

/-- A negotiation moves CONN only before it is I2CMode (R11). -/
theorem Inv.not_negotiates {s : State} (hinv : Inv s) (hconn : s.conn = .i2cMode) : negotiates s.seq = false := by
  have hlegal := hinv.conn_legal
  unfold negotiates
  split <;> simp_all [connAt]

/-- The phase of a raise is one of a WRITE or READ with the transport in I2CMode (R213). -/
theorem Inv.of_raised {s : State} {e : Status} (hinv : Inv s) (hseq : s.seq = .raised e) :
    s.busy = true ∧ (s.op = 2 ∨ s.op = 3) ∧ s.conn = .i2cMode :=
  ⟨hinv.busy_iff_running.mpr (by simp [hseq]), by simpa [opAt, hseq] using hinv.op_legal,
    by simpa [connAt, hseq] using hinv.conn_legal⟩

/-- A step sets DESYNC only in the abort phase of a WRITE or READ. -/
theorem desync_set_by_raise {s t : State} (hinv : Inv s) (h : step s = .next t) (h0 : s.desync = false)
    (h1 : t.desync = true) : (s.op = 2 ∨ s.op = 3) ∧ ∃ e, s.seq = .raised e ∧ t.status = e := by
  cases step_effect h with
  | reset backlog due next => simp [next] at h1
  | quiet kept => simp [kept.desync, h0] at h1
  | accepted code q first idle next => simp [next, h0] at h1
  | completed r running next => simp [next, h0] at h1
  | initialised running phase next => simp [next] at h1
  | aborted e running phase next =>
    obtain ⟨-, hop, -⟩ := hinv.of_raised phase
    exact ⟨hop, e, phase, by simp [next]⟩
  | released ph l next => simp [next] at h1

/-- A step clears DESYNC only by moving CONN to Closed: an INIT that is about to succeed finds it clear. -/
theorem desync_cleared_when_closed {s t : State} (hinv : Inv s) (h : step s = .next t) (h1 : s.desync = true)
    (h0 : t.desync = false) : t.conn = .closed := by
  cases step_effect h with
  | reset backlog due next => simp [next]
  | quiet kept => simp [kept.desync, h1] at h0
  | accepted code q first idle next => simp [next, h1] at h0
  | completed r running next => simp [next, h1] at h0
  | initialised running phase next => exact absurd phase (hinv.desync_open h1).2
  | aborted e running phase next => simp [next] at h0
  | released ph l next => simp [next]

/-- After a step from a legal state DESYNC 1 still implies CONN I2CMode. -/
theorem desync_implies_i2cMode {s t : State} (hinv : Inv s) (h : step s = .next t) (h1 : t.desync = true) :
    t.conn = .i2cMode := by
  have hopen : s.desync = true → s.conn = .i2cMode := fun hd => (hinv.desync_open hd).1
  cases step_effect h with
  | reset backlog due next => simp [next] at h1
  | quiet kept =>
    have hconn := hopen (kept.desync ▸ h1)
    simpa [hconn, hinv.not_negotiates hconn] using kept.conn
  | accepted code q first idle next => simpa [next] using hopen (by simpa [next] using h1)
  | completed r running next => simpa [next] using hopen (by simpa [next] using h1)
  | initialised running phase next => simp [next] at h1
  | aborted e running phase next =>
    obtain ⟨-, -, hconn⟩ := hinv.of_raised phase
    simp [next, hconn]
  | released ph l next => simp [next] at h1

/-- Settles O23, clause by clause. -/
theorem desyncIsSticky : Obligations.DesyncIsSticky := by
  intro s t hinv h
  refine ⟨desync_set_by_raise hinv h, fun hr e hseq => ?_, desync_cleared_when_closed hinv h,
    desync_implies_i2cMode hinv h⟩
  obtain ⟨hb, -, -⟩ := hinv.of_raised hseq
  rw [step_of_raised hr hb hseq] at h
  cases h
  rfl

/-- Settles O27: a legal state gives the receive that is due its permission, so without an answer it waits, and a
waiting receive leaves the state as it is. -/
theorem unansweredReceiveHangs : Obligations.UnansweredReceiveHangs := by
  intro s hinv hr ho hrecvs
  have hpermitted : receiveSize s ≤ s.await.toNat := hinv.await_owed ▸ hinv.receiveSize_le_owed
  have hwaits : receive (receiveSize s) s = .waiting :=
    receive_of_no_answer (hinv.held_of_owed ho) (hinv.receiveSize_ne_zero ho) hinv.receiveSize_le_chunkR hpermitted
      hrecvs
  obtain ⟨i, hi, hexec⟩ := exec_of_receive_waiting ho hwaits
  rw [step_of_fetch hr (by rw [fetch_of_busy (hinv.busy_of_owed ho), hi]), hexec]

end Sys2Proof.Machine
end

section
/-!
PROOFS. The I2C address byte as a number, and its two fields (20_memory R45).
-/
namespace Sys2Proof.Machine

theorem directionBit_toNat (dir : Direction) : (directionBit dir).toNat = if dir = .read then 1 else 0 := by
  cases dir <;> rfl

theorem directionBit_toNat_lt (dir : Direction) : (directionBit dir).toNat < 2 := by
  cases dir <;> decide

/-- The shift leaves bit 0 free for the direction. -/
theorem addressByte_toNat (dev : BitVec 7) (dir : Direction) :
    (addressByte dev dir).toNat = 2 * dev.toNat + (directionBit dir).toNat := by
  have hdev := dev.isLt
  have hshift : (dev.setWidth 8 <<< 1).toNat = 2 ^ 1 * dev.toNat := by
    simp only [BitVec.toNat_shiftLeft, BitVec.toNat_setWidth, Nat.shiftLeft_eq]
    omega
  have hbit : (directionBit dir).toNat < 2 ^ 1 := directionBit_toNat_lt dir
  rw [addressByte, BitVec.toNat_or, hshift, ← Nat.two_pow_add_eq_or_of_lt hbit, pow_one]

@[simp] theorem deviceOf_addressByte (dev : BitVec 7) (dir : Direction) : deviceOf (addressByte dev dir) = dev := by
  apply BitVec.eq_of_toNat_eq
  have hdev := dev.isLt
  have hbit := directionBit_toNat_lt dir
  rw [deviceOf, BitVec.extractLsb'_toNat, addressByte_toNat, Nat.shiftRight_eq_div_pow]
  omega

@[simp] theorem directionOf_addressByte (dev : BitVec 7) (dir : Direction) :
    directionOf (addressByte dev dir) = dir := by
  rw [directionOf, BitVec.getLsbD, addressByte_toNat, directionBit_toNat, Nat.testBit_zero]
  cases dir <;> simp

/-- Settles O6, by the number the address byte stands for. -/
theorem addressByteLosesNothing : Obligations.AddressByteLosesNothing := by
  intro dev dir
  exact ⟨by rw [addressByte_toNat, directionBit_toNat], deviceOf_addressByte dev dir, directionOf_addressByte dev dir⟩

end Sys2Proof.Machine
end

section
/-!
PROOFS. What one step does to the receive stream and to RBUF, said once for every instruction (20_memory R42, R43;
10_state R30), and the statements about them.
-/
namespace Sys2Proof.Machine

/-! ## The host operations move no byte -/

/-- The frame of a host operation, from fields that agree as they stand. -/
theorem OperationKeeps.of_fields {s t : State} (params : t.params = s.params := by rfl)
    (resetReq : t.resetReq = s.resetReq := by rfl) (remain : t.remain = s.remain := by rfl)
    (chunkN : t.chunkN = s.chunkN := by rfl) (abuf : t.abuf = s.abuf := by rfl) (wbuf : t.wbuf = s.wbuf := by rfl)
    (rbuf : t.rbuf = s.rbuf := by rfl) (rx : t.link.rx = s.link.rx := by rfl)
    (sends : t.link.sends = s.link.sends := by rfl) (recvs : t.link.recvs = s.link.recvs := by rfl) :
    OperationKeeps s t :=
  ⟨params, resetReq, remain, chunkN, abuf, fun _ => by rw [wbuf], fun _ => by rw [rbuf], rx, sends, recvs⟩

theorem execInit_keeps {q : Operands} {s t : State} (h : execInit q s = .next t) : OperationKeeps s t := by
  unfold execInit at h
  split at h
  · cases h
    exact .of_fields
  · split at h
    · cases h
      exact .of_fields
    · split at h <;> cases h
      · exact .of_fields
      · obtain ⟨-, rest, -, rfl⟩ := openTransport_returned ‹_›
        exact .of_fields
      · obtain ⟨-, rest, -, rfl⟩ := openTransport_returned ‹_›
        exact .of_fields
    · split at h <;> cases h
      · exact .of_fields
      · obtain ⟨-, rest, -, rfl⟩ := configureLine_returned ‹_›
        exact .of_fields
      · obtain ⟨-, rest, -, rfl⟩ := configureLine_returned ‹_›
        exact .of_fields
    · cases h
      exact .of_fields
    · split at h <;> cases h
      · exact .of_fields
      · obtain ⟨-, rfl⟩ := releaseTransport_returned ‹_›
        exact .of_fields
    · cases h
      exact .of_fields
    · cases h

theorem execClose_keeps {q : Operands} {s t : State} (h : execClose q s = .next t) : OperationKeeps s t := by
  unfold execClose at h
  split at h
  · cases h
    exact .of_fields
  · split at h
    · cases h
      exact .of_fields
    · split at h <;> cases h
      · exact .of_fields
      · obtain ⟨-, rfl⟩ := releaseTransport_returned ‹_›
        exact .of_fields
    · cases h
      exact .of_fields
    · cases h

theorem afterCheck_keeps (result : Option Status) (done : Status → Seq) (go : Seq) (s : State) :
    OperationKeeps s (afterCheck result done go s) := by
  cases result
  · exact .of_fields
  · exact .of_fields

theorem afterCombinedCheck_keeps (result : Option Status) (last : Bool) (s : State) :
    OperationKeeps s (afterCombinedCheck result last s) := by
  cases result
  · exact .of_fields
  · exact .of_fields

theorem execWrite_keeps {q : Operands} {s t : State} (h : execWrite q s = .next t) : OperationKeeps s t := by
  unfold execWrite at h
  split at h
  · cases h
    exact .of_fields
  · split at h <;> cases h
    · exact afterCheck_keeps _ _ _ s
    · exact afterCombinedCheck_keeps _ _ s
    · exact .of_fields
    · exact .of_fields
    · exact .of_fields

theorem execRead_keeps {q : Operands} {s t : State} (h : execRead q s = .next t) : OperationKeeps s t := by
  unfold execRead at h
  split at h
  · cases h
    exact .of_fields
  · split at h <;> cases h
    · exact afterCheck_keeps _ _ _ s
    · exact afterCombinedCheck_keeps _ _ s
    · exact .of_fields
    · exact .of_fields
    · exact .of_fields

theorem execDelay_keeps {q : Operands} {s t : State} (h : execDelay q s = .next t) : OperationKeeps s t := by
  unfold execDelay at h
  split at h
  · cases h
    exact .of_fields
  · split at h <;> cases h
    · exact .of_fields
    · exact .of_fields

/-! ## Where bytes go -/

/-- The bytes `d` are stored at CURSOR upward, below LEN, in a phase of a READ that receives data (R42, R151, R173). -/
structure StoresInput (s t : State) (d : List Byte) : Prop where
  phase   : s.seq = .rByteRx ∨ ∃ last, s.seq = .xDataRx last
  rbuf    : t.rbuf = s.rbuf.writeAll s.cursor.toNat d
  cursor  : t.cursor.toNat = s.cursor.toNat + d.length
  bounded : t.cursor.toNat ≤ s.args.len.toNat

/-- After a receive that left ABUF `ab` and link `l` the rest of the phase keeps both, and RBUF unless it stores input. -/
structure Delivers (s : State) (ab : List Byte) (l : Link) (t : State) : Prop where
  abuf : t.abuf = ab := by simp
  link : t.link = l := by simp
  rbuf : t.rbuf = s.rbuf ∨ ∃ d, StoresInput s t d := by simp

/-- The ways a step without a reset treats the receive stream and RBUF: it touches neither, it makes one `TX` (R93), or
it makes one `RX` (R94). -/
inductive ByteFlow (s t : State) : Prop
  | kept (keeps : OperationKeeps s t)
  | sent (bytes : List Byte) (r : TxResult) (l : Link) (call : Sent bytes s r l) (link : t.link = l)
      (rbuf : t.rbuf = s.rbuf)
  | received (n : Nat) (r : RxResult) (ab : List Byte) (aw : BitVec 17) (l : Link) (call : Received n s r ab aw l)
      (delivers : Delivers s ab l t)

theorem ByteFlow.refl (s : State) : ByteFlow s s := .kept .of_fields

/-! ## The halves of an exchange -/

theorem sendFrame_flow {cls : ExchangeClass} {bytes : List Byte} {k : BitVec 17} {ph : Seq} {s t : State}
    (h : sendFrame cls bytes k ph s = .next t) : ByteFlow s t := by
  obtain rfl | ⟨r, l, hsent, ⟨-, rfl⟩ | ⟨-, rfl⟩⟩ := sendFrame_shape h
  · exact .refl t
  · exact .sent _ _ _ hsent rfl rfl
  · exact .sent _ _ _ hsent (by simp) (by simp)

theorem sendBestEffort_flow {bytes : List Byte} {ph : Seq} {s t : State} (h : sendBestEffort bytes ph s = .next t) :
    ByteFlow s t := by
  obtain rfl | ⟨r, l, hsent, rfl⟩ := sendBestEffort_shape h
  · exact .refl t
  · exact .sent _ _ _ hsent rfl rfl

theorem RaisedBy.flow {cls : ExchangeClass} {n : Nat} {e : Status} {s t : State} (h : RaisedBy cls n e s t) :
    ByteFlow s t := by
  obtain ⟨r, ab, aw, l, e', hrecv, -, rfl⟩ := h
  exact .received _ _ _ _ _ hrecv {}

theorem receiveExactly_flow {cls : ExchangeClass} {k : Nat} {go : State → Out} {s t : State}
    (hgo : ∀ a aw l, go { s with abuf := a, await := aw, link := l } = .next t → Delivers s a l t)
    (h : receiveExactly cls k go s = .next t) : ByteFlow s t := by
  obtain rfl | hraise | ⟨a, aw, l, hrecv, -, hnext⟩ := receiveExactly_shape h
  · exact .refl t
  · exact hraise.flow
  · exact .received _ _ _ _ _ hrecv (hgo a aw l hnext)

theorem receiveAck_flow {cls : ExchangeClass} {k : Nat} {after : State → State} {s t : State}
    (hafter : ∀ a l, Delivers s a l (after { s with abuf := a, await := 0, link := l }))
    (h : receiveAck cls k (fun u => .next (after u)) s = .next t) : ByteFlow s t := by
  refine receiveExactly_flow (fun a aw l hnext => ?_) h
  cases hnext
  exact hafter a l

theorem receiveLiteral_flow {literal : List Byte} {after : State → State} {s t : State}
    (hafter : ∀ a l, Delivers s a l (after { s with abuf := a, await := 0, link := l }))
    (h : receiveLiteral literal (fun u => .next (after u)) s = .next t) : ByteFlow s t := by
  obtain rfl | hraise | ⟨aw, l, hrecv, hnext⟩ := receiveLiteral_shape h
  · exact .refl t
  · exact hraise.flow
  · cases hnext
    exact .received _ _ _ _ _ hrecv (hafter literal l)

/-! ## The stores of a READ -/

/-- An advance that stays within LEN does not wrap (R182). -/
theorem advance_toNat {cursor len : Half} {n : Nat} (h : cursor.toNat + n ≤ len.toNat) :
    (cursor + BitVec.ofNat 16 n).toNat = cursor.toNat + n := by
  rw [BitVec.toNat_add, BitVec.toNat_ofNat]
  omega

theorem storeByte_delivers {a : List Byte} {aw : BitVec 17} {l : Link} {s t : State} (hseq : s.seq = .rByteRx)
    (h : storeByte { s with abuf := a, await := aw, link := l } = .next t) : Delivers s a l t := by
  unfold storeByte at h
  split at h
  · rename_i hmore
    cases h
    have hroom : s.cursor.toNat + 1 ≤ s.args.len.toNat := by simpa [moreBytes] using hmore
    have hcursor : (s.cursor + 1).toNat = s.cursor.toNat + 1 := advance_toNat hroom
    exact { rbuf := .inr ⟨[a.headD 0], .inl hseq, rfl, hcursor, hcursor.trans_le hroom⟩ }
  · cases h

theorem storeInput_delivers {last : Bool} {a : List Byte} {aw : BitVec 17} {l : Link} {s t : State}
    (hseq : s.seq = .xDataRx last)
    (h : storeInput last a { s with abuf := a, await := aw, link := l } = .next t) : Delivers s a l t := by
  unfold storeInput at h
  split at h
  · cases h
  · rename_i hroom
    cases h
    have hroom : s.cursor.toNat + a.length ≤ s.args.len.toNat := by simpa using hroom
    have hcursor := advance_toNat hroom
    exact { rbuf := .inr ⟨a, .inr ⟨last, hseq⟩, by simp, by simpa using hcursor, by simpa [hcursor] using hroom⟩ }

theorem checkStatus_delivers {last : Bool} {r : Half} {a : List Byte} {aw : BitVec 17} {l : Link} {s t : State}
    (h : checkStatus last r { s with abuf := a, await := aw, link := l } = .next t) : Delivers s a l t := by
  unfold checkStatus at h
  split at h <;> cases h
  · exact {}
  · exact {}

/-! ## The wire frames -/

theorem execEnterBinary_flow {s t : State} (h : execEnterBinary s = .next t) : ByteFlow s t := by
  unfold execEnterBinary at h
  split at h
  · exact sendFrame_flow h
  · exact receiveLiteral_flow (fun _ _ => {}) h
  · cases h

theorem execEnterI2c_flow {s t : State} (h : execEnterI2c s = .next t) : ByteFlow s t := by
  unfold execEnterI2c at h
  split at h
  · exact sendFrame_flow h
  · exact receiveLiteral_flow (fun _ _ => {}) h
  · cases h

theorem execResetTerm_flow {s t : State} (h : execResetTerm s = .next t) : ByteFlow s t := by
  unfold execResetTerm at h
  split at h
  · exact sendBestEffort_flow h
  · exact sendBestEffort_flow h
  · cases h

theorem execAddrSelect_flow {dev : BitVec 7} {dir : Direction} {reg : Byte} {s t : State}
    (h : execAddrSelect dev dir reg s = .next t) : ByteFlow s t := by
  unfold execAddrSelect at h
  split at h
  · exact sendFrame_flow h
  · exact receiveAck_flow (fun _ _ => {}) h
  · exact sendFrame_flow h
  · exact receiveAck_flow (fun _ _ => {}) h
  · cases h

theorem execReselectRead_flow {dev : BitVec 7} {s t : State} (h : execReselectRead dev s = .next t) :
    ByteFlow s t := by
  unfold execReselectRead at h
  split at h
  · exact sendFrame_flow h
  · exact receiveAck_flow (fun _ _ => {}) h
  · cases h

theorem execBulkHdr_flow {n : BitVec 4} {s t : State} (h : execBulkHdr n s = .next t) : ByteFlow s t := by
  unfold execBulkHdr at h
  split at h
  · exact sendFrame_flow h
  · exact receiveAck_flow (fun _ _ => {}) h
  · cases h

theorem execBulkPayload_flow {data : List Byte} {s t : State} (h : execBulkPayload data s = .next t) :
    ByteFlow s t := by
  unfold execBulkPayload at h
  split at h
  · split at h
    · cases h
    · exact sendFrame_flow h
  · exact receiveAck_flow (fun _ _ => {}) h
  · cases h

theorem execStop_flow {s t : State} (h : execStop s = .next t) : ByteFlow s t := by
  unfold execStop at h
  split at h
  · exact sendFrame_flow h
  · exact receiveAck_flow (fun _ _ => {}) h
  · cases h

theorem execReadByte_flow {s t : State} (h : execReadByte s = .next t) : ByteFlow s t := by
  unfold execReadByte at h
  split at h
  · exact sendFrame_flow h
  · refine receiveExactly_flow (fun a aw l hstore => ?_) h
    exact storeByte_delivers ‹_› hstore
  · cases h

theorem execEndRead_flow {s t : State} (h : execEndRead s = .next t) : ByteFlow s t := by
  unfold execEndRead at h
  split at h
  · exact sendFrame_flow h
  · exact receiveAck_flow (fun _ _ => {}) h
  · cases h

theorem execWtr_flow {r : Half} {out : List Byte} {s t : State} (h : execWtr r out s = .next t) : ByteFlow s t := by
  unfold execWtr at h
  split at h
  · exact sendFrame_flow h
  · exact receiveExactly_flow (fun _ _ _ => checkStatus_delivers) h
  · obtain rfl | hraise | ⟨a, aw, l, hrecv, -, hstore⟩ := receiveInput_shape h
    · exact .refl t
    · exact hraise.flow
    · exact .received _ _ _ _ _ hrecv (storeInput_delivers ‹_› hstore)
  · cases h

/-! ## One step -/

theorem exec_flow {i : Instr} {s t : State} (h : exec i s = .next t) : ByteFlow s t := by
  cases i with
  | init q => exact .kept (execInit_keeps h)
  | close q => exact .kept (execClose_keeps h)
  | write q => exact .kept (execWrite_keeps h)
  | read q => exact .kept (execRead_keeps h)
  | delay q => exact .kept (execDelay_keeps h)
  | reservedOp5 q => cases h
  | reservedOp6 q => cases h
  | reservedOp7 q => cases h
  | enterBinary => exact execEnterBinary_flow h
  | enterI2c => exact execEnterI2c_flow h
  | addrSelect dev dir reg => exact execAddrSelect_flow h
  | reselectRead dev => exact execReselectRead_flow h
  | bulkHdr n => exact execBulkHdr_flow h
  | bulkPayload data => exact execBulkPayload_flow h
  | stop => exact execStop_flow h
  | readByte => exact execReadByte_flow h
  | endRead => exact execEndRead_flow h
  | resetTerm => exact execResetTerm_flow h
  | wtr r out => exact execWtr_flow h

/-- Every step but a reset treats the receive stream and RBUF in one of the ways above. -/
theorem step_flow {s t : State} (hr : s.resetReq = none) (h : step s = .next t) : ByteFlow s t := by
  obtain ⟨-, rfl⟩ | ⟨i, -, hexec⟩ := step_next hr h
  · exact .refl t
  · exact exec_flow hexec

/-- A step that changes a byte of RBUF stores input. -/
theorem step_stores_of_read_ne {s t : State} {i : Nat} (h : step s = .next t)
    (hne : t.rbuf.read i ≠ s.rbuf.read i) : ∃ d, StoresInput s t d := by
  cases hr : s.resetReq with
  | some backlog =>
    rw [step_of_reset hr] at h
    cases h
    exact absurd (by simp) hne
  | none =>
    cases step_flow hr h with
    | kept keeps => exact absurd (keeps.rbuf i) hne
    | sent bytes r l call link rbuf => exact absurd (by rw [rbuf]) hne
    | received n r ab aw l call delivers => exact delivers.rbuf.resolve_left fun hsame => hne (by rw [hsame])

/-- Settles O19: of the effects of a step on the receive stream only an `RX` takes bytes, and it takes them from the
head. -/
theorem receiveTakesOldestFirst : Obligations.ReceiveTakesOldestFirst := by
  intro s t hr h
  cases step_flow hr h with
  | kept keeps => exact ⟨[], [], by simp [keeps.rx], .inl rfl⟩
  | sent bytes r l call link rbuf =>
    obtain ⟨hrx, -⟩ := call.keeps
    exact ⟨[], [], by simp [link, hrx], .inl rfl⟩
  | received n r ab aw l call delivers =>
    obtain ⟨-, -, -, hwire⟩ := call.keeps
    obtain ⟨arriving, got, hstream, hgot⟩ := call.stream
    refine ⟨arriving, got, by rw [delivers.link, hstream], hgot.imp_right fun ⟨hres, hlen, hab⟩ => ?_⟩
    exact ⟨n, by rw [delivers.link, hwire, hres], hlen, by rw [delivers.abuf, hab]⟩

/-- The phases that store input are phases of a READ (R16). -/
theorem StoresInput.op_read {s t : State} {d : List Byte} (hstore : StoresInput s t d) (hinv : Inv s) : s.op = 3 := by
  have hop := hinv.op_legal
  obtain hseq | ⟨last, hseq⟩ := hstore.phase
  · simpa [opAt, hseq] using hop
  · simp only [opAt, hseq, Bool.and_eq_true, beq_iff_eq] at hop
    exact hop.2

/-- Settles O25: a changed byte lies in the range of the store, which runs from the old CURSOR to the new one. -/
theorem readStoresAtTheCursor : Obligations.ReadStoresAtTheCursor := by
  intro s t i hinv h hne
  obtain ⟨d, hstore⟩ := step_stores_of_read_ne h hne
  have hrange : s.cursor.toNat ≤ i ∧ i < s.cursor.toNat + d.length := by
    by_contra hout
    refine hne ?_
    rw [hstore.rbuf]
    exact Memory.read_writeAll_other _ _ _ _ (by omega)
  exact ⟨hstore.op_read hinv, hrange.1, hstore.cursor ▸ hrange.2, hstore.bounded⟩

end Sys2Proof.Machine
end

section
/-!
PROOFS. The bulk-write command byte and the two bytes of a length as numbers (30_encoding R67, R74; 20_memory R47).
-/
namespace Sys2Proof.Machine

/-- The length field lies below the command bit `0x10` and loses nothing to its mask. -/
theorem bulkCommand_toNat (n : BitVec 4) : (bulkCommand n).toNat = 16 + n.toNat := by
  have hn : n.toNat < 2 ^ 4 := n.isLt
  have hfield : (n.setWidth 8 &&& 0x0F#8).toNat = n.toNat := by
    rw [BitVec.toNat_and, BitVec.toNat_setWidth_of_le (by decide)]
    exact (Nat.and_two_pow_sub_one_eq_mod n.toNat 4).trans (Nat.mod_eq_of_lt hn)
  rw [bulkCommand, BitVec.toNat_or, hfield]
  exact (Nat.two_pow_add_eq_or_of_lt hn 1).symm

/-- High byte first: the first byte counts 256s. -/
theorem halfOf_toNat (hi lo : Byte) : (halfOf hi lo).toNat = 256 * hi.toNat + lo.toNat := by
  rw [halfOf, BitVec.toNat_append, ← Nat.shiftLeft_add_eq_or_of_lt lo.isLt, Nat.shiftLeft_eq, Nat.mul_comm]

theorem highByte_toNat (v : Half) : (highByte v).toNat = v.toNat / 256 := by
  have hv := v.isLt
  rw [highByte, BitVec.extractLsb'_toNat, Nat.shiftRight_eq_div_pow]
  omega

theorem lowByte_toNat (v : Half) : (lowByte v).toNat = v.toNat % 256 := by
  simp [lowByte]

/-- A 16-bit value is read back from the two bytes it is sent as. -/
@[simp] theorem halfOf_highByte_lowByte (v : Half) : halfOf (highByte v) (lowByte v) = v := by
  apply BitVec.eq_of_toNat_eq
  rw [halfOf_toNat, highByte_toNat, lowByte_toNat, Nat.div_add_mod]

/-- Settles O7, by the numbers the command byte and the two bytes of a length stand for. -/
theorem lengthFieldsAreExact : Obligations.LengthFieldsAreExact := by
  refine ⟨bulkCommand_toNat, fun v => ⟨highByte v, lowByte v, rfl, ?_, halfOf_highByte_lowByte v⟩⟩
  rw [← halfOf_toNat, halfOf_highByte_lowByte]

end Sys2Proof.Machine
end

section
/-!
PROOFS. Which frame is in flight in which phase of SEQ (10_state R16), what a legal state says of the registers it is built
from (R20 to R22), and that it is a frame the block emits where its row allows it (30_encoding R62, R77).
-/
namespace Sys2Proof.Machine

/-! ## The frame in flight -/

/-- The frame in flight of each family, with the phases that call for it (R16). -/
inductive FrameInFlight (s : State) : Instr → Prop
  | enterBinary (phase : s.seq ∈ [.iBinTx, .iBinRx]) : FrameInFlight s .enterBinary
  | enterI2c (phase : s.seq ∈ [.iI2cTx, .iI2cRx]) : FrameInFlight s .enterI2c
  | addrSelect (phase : s.seq ∈ [.wAddrTx, .wAddrRx, .rAddrTx, .rAddrRx]) : FrameInFlight s (addrSelectOf s.args)
  | reselectRead (phase : s.seq ∈ [.rReselTx, .rReselRx]) : FrameInFlight s (.reselectRead s.args.devId)
  | bulkHdr (phase : s.seq ∈ [.wHdrTx, .wHdrRx]) : FrameInFlight s (.bulkHdr (s.chunkN.setWidth 4))
  | bulkPayload (phase : s.seq ∈ [.wPayTx, .wPayRx]) : FrameInFlight s (.bulkPayload (payloadOf s))
  | stop (phase : s.seq ∈ [.wStopTx, .wStopRx]) : FrameInFlight s .stop
  | readByte (phase : s.seq ∈ [.rByteTx, .rByteRx]) : FrameInFlight s .readByte
  | endRead (phase : s.seq ∈ [.rEndTx, .rEndRx]) : FrameInFlight s .endRead
  | resetTerm (phase : s.seq = .cResetTx ∨ ∃ e, s.seq = .aResetTx e) : FrameInFlight s .resetTerm
  | wtr (last : Bool) (phase : s.seq ∈ [.xCmdTx last, .xStatRx last, .xDataRx last]) : FrameInFlight s (wtrOf last s)

theorem transactionOf_not_frame (s : State) : isFrame (transactionOf s) = false := by
  unfold transactionOf
  split <;> rfl

/-- When SEQ calls for a frame, it is the frame of its phase. -/
theorem phaseInstr_frame {s : State} {i : Instr} (h : phaseInstr s = some i) (hframe : isFrame i = true) :
    FrameInFlight s i := by
  cases hseq : s.seq <;> simp only [phaseInstr, hseq] at h <;> cases h
  case iBinTx | iBinRx => exact .enterBinary (by simp [hseq])
  case iI2cTx | iI2cRx => exact .enterI2c (by simp [hseq])
  case wAddrTx | wAddrRx | rAddrTx | rAddrRx => exact .addrSelect (by simp [hseq])
  case rReselTx | rReselRx => exact .reselectRead (by simp [hseq])
  case wHdrTx | wHdrRx => exact .bulkHdr (by simp [hseq])
  case wPayTx | wPayRx => exact .bulkPayload (by simp [hseq])
  case wStopTx | wStopRx => exact .stop (by simp [hseq])
  case rByteTx | rByteRx => exact .readByte (by simp [hseq])
  case rEndTx | rEndRx => exact .endRead (by simp [hseq])
  case cResetTx | aResetTx => exact .resetTerm (by simp [hseq])
  case xCmdTx last | xStatRx last | xDataRx last => exact .wtr last (by simp [hseq])
  case xCheck | xDone | raised => simp [transactionOf_not_frame] at hframe
  all_goals cases hframe

/-! ## Where each family is in flight -/

/-- The phases of the frames of the PerByte strategy. -/
def perByteExchange : Seq → Bool
  | .wAddrTx | .wAddrRx | .wHdrTx | .wHdrRx | .wPayTx | .wPayRx | .wStopTx | .wStopRx
  | .rAddrTx | .rAddrRx | .rReselTx | .rReselRx | .rByteTx | .rByteRx | .rEndTx | .rEndRx => true
  | _ => false

/-- The phases that send a chunk of a WRITE (R171). -/
def chunkExchange : Seq → Bool
  | .wHdrTx | .wHdrRx | .wPayTx | .wPayRx => true
  | _ => false

theorem Inv.of_perByteExchange {s : State} (hinv : Inv s) (hphase : perByteExchange s.seq = true) :
    s.conn = .i2cMode ∧ s.strat = .perByte := by
  have hconn := hinv.conn_legal
  have hstrat := hinv.strat_legal
  unfold perByteExchange at hphase
  split at hphase <;> simp_all [connAt, stratAt]

theorem Inv.of_combinedExchange {s : State} {last : Bool} (hinv : Inv s)
    (hphase : s.seq ∈ [.xCmdTx last, .xStatRx last, .xDataRx last]) : s.conn = .i2cMode ∧ s.strat = .combined := by
  have hlegal := And.intro hinv.conn_legal hinv.strat_legal
  simp only [List.mem_cons, List.not_mem_nil, or_false] at hphase
  obtain hseq | hseq | hseq := hphase <;> simpa [connAt, stratAt, hseq] using hlegal

/-! ## The sizes of the payloads -/

/-- A chunk in flight has 1 to 15 bytes (R22, R171). -/
theorem Inv.chunkN_bounds {s : State} (hinv : Inv s) (hphase : chunkExchange s.seq = true) :
    1 ≤ s.chunkN.toNat ∧ s.chunkN.toNat ≤ 15 := by
  have hcount : s.cursor.toNat < s.args.len.toNat ∧ s.chunkN = writeChunk s.cursor s.args.len := by
    have hcounters := hinv.counters
    unfold chunkExchange at hphase
    split at hphase <;> simp_all [countersOk]
  obtain ⟨hmore, hchunk⟩ := hcount
  rw [hchunk, writeChunk_toNat]
  omega

/-- A combined frame of a WRITE carries at most 126 bytes of data; its input phase belongs to a READ (R170, R178). -/
theorem Inv.len_le_of_combinedWrite {s : State} {last : Bool} (hinv : Inv s)
    (hphase : s.seq ∈ [.xCmdTx last, .xStatRx last, .xDataRx last]) (hop : s.op = 2) :
    s.args.len.toNat ≤ Config.maxWriteLen := by
  have hcounters := hinv.counters
  simp only [List.mem_cons, List.not_mem_nil, or_false] at hphase
  obtain hseq | hseq | hseq := hphase
  · simp only [countersOk, hseq] at hcounters
    exact hcounters.2 hop
  · simp only [countersOk, hseq] at hcounters
    exact hcounters.2 hop
  · have hread := hinv.op_legal
    simp [opAt, hseq, hop] at hread

theorem bulkHdr_wellFormed {c : BitVec 5} (hpos : 1 ≤ c.toNat) (hle : c.toNat ≤ 15) :
    (Instr.bulkHdr (c.setWidth 4)).wellFormed = true := by
  have hne : c.setWidth 4 ≠ 0 := by bv_omega
  simpa [Instr.wellFormed] using hne

theorem wtrOf_wellFormed {last : Bool} {s : State} (hlen : s.op = 2 → s.args.len.toNat ≤ Config.maxWriteLen) :
    (wtrOf last s).wellFormed = true := by
  unfold wtrOf
  split
  · rename_i hop
    simpa [wtrOfWrite, Instr.wellFormed] using hlen hop
  · split <;> rfl

/-! ## The statement -/

theorem FrameInFlight.wellFormed_eq_true {s : State} {i : Instr} (h : FrameInFlight s i) (hinv : Inv s) :
    i.wellFormed = true := by
  cases h with
  | bulkHdr phase =>
    obtain ⟨hpos, hle⟩ := hinv.chunkN_bounds (List.all_eq_true.mp rfl _ phase)
    exact bulkHdr_wellFormed hpos hle
  | bulkPayload phase =>
    have hsize := hinv.chunkN_bounds (List.all_eq_true.mp rfl _ phase)
    simpa [Instr.wellFormed, payloadOf_length, Config.chunkW] using hsize
  | wtr last phase => exact wtrOf_wellFormed (hinv.len_le_of_combinedWrite phase)
  | _ => rfl

theorem FrameInFlight.sentWhen_eq_true {s : State} {i : Instr} (h : FrameInFlight s i) (hinv : Inv s) :
    sentWhen i s.conn s.strat = true := by
  have hconn := hinv.conn_legal
  cases h with
  | enterBinary phase =>
    obtain hseq | hseq := List.mem_pair.mp phase <;> simpa only [connAt, hseq, sentWhen] using hconn
  | enterI2c phase =>
    obtain hseq | hseq := List.mem_pair.mp phase <;> simpa only [connAt, hseq, sentWhen] using hconn
  | resetTerm phase =>
    obtain hseq | ⟨e, hseq⟩ := phase
    · have hopen : s.conn = .i2cMode := by simpa [connAt, hseq] using hconn
      simp [hopen, sentWhen]
    · obtain hopen | hopen : s.conn = .unknown ∨ s.conn = .binaryMode := by simpa [connAt, hseq] using hconn
      · simp [hopen, sentWhen]
      · simp [hopen, sentWhen]
  | wtr last phase =>
    obtain ⟨hmode, hstrat⟩ := hinv.of_combinedExchange phase
    obtain ⟨r, out, hwtr⟩ := wtrOf_wtr last s
    simp [hwtr, sentWhen, hmode, hstrat]
  | _ phase =>
    obtain ⟨hmode, hstrat⟩ := hinv.of_perByteExchange (List.all_eq_true.mp rfl _ phase)
    simp [addrSelectOf, sentWhen, hmode, hstrat]

/-- Settles O14: the frame in flight is the one of its phase, and a legal state bounds its fields and fixes CONN and STRAT
there. -/
theorem framesInFlightAreLegal : Obligations.FramesInFlightAreLegal := by
  intro s i hinv _ hdue hframe
  have hflight := phaseInstr_frame hdue hframe
  exact ⟨hflight.wellFormed_eq_true hinv, hflight.sentWhen_eq_true hinv⟩

end Sys2Proof.Machine
end

section
/-!
PROOFS. Which call on the transport port the due instruction makes, and what it adds to the history
(40_transport_arbiter R90 to R98): the host operations make control calls only, a frame in flight one `TX` of its own bytes or one `RX`.
-/
namespace Sys2Proof.Machine

/-! ## The phases that move bytes -/

/-- The phases that make a `TX` (R16). -/
def sendPhase : Seq → Bool
  | .iBinTx | .iI2cTx | .aResetTx _ | .cResetTx | .wAddrTx | .wHdrTx | .wPayTx | .wStopTx
  | .rAddrTx | .rReselTx | .rByteTx | .rEndTx | .xCmdTx _ => true
  | _ => false

/-- The phases that make an `RX` (R16). -/
def receivePhase : Seq → Bool
  | .iBinRx | .iI2cRx | .wAddrRx | .wHdrRx | .wPayRx | .wStopRx
  | .rAddrRx | .rReselRx | .rByteRx | .rEndRx | .xStatRx _ | .xDataRx _ => true
  | _ => false

/-- What follows an `RX` in the same step: it touches the link no further, and from a legal state it does not stop. -/
structure Continues (s : State) (go : State → Out) : Prop where
  link : ∀ a aw l t, go { s with abuf := a, await := aw, link := l } = .next t → t.link = l
  runs : Inv s → ∀ a aw l, ∃ t, go { s with abuf := a, await := aw, link := l } = .next t

theorem Continues.next {s : State} {after : State → State} (hafter : ∀ u, (after u).link = u.link) :
    Continues s (fun u => .next (after u)) where
  link a aw l t h := by
    cases h
    exact hafter _
  runs _ _ _ _ := ⟨_, rfl⟩

/-- A check after an `RX` that goes on in one of two ways. -/
theorem Continues.ite {s : State} {check : State → Bool} {pass fail : State → Out} (hpass : Continues s pass)
    (hfail : Continues s fail) : Continues s (fun u => if check u then pass u else fail u) where
  link a aw l t h := by
    split at h
    · exact hpass.link a aw l t h
    · exact hfail.link a aw l t h
  runs hinv a aw l := by
    split
    · exact hpass.runs hinv a aw l
    · exact hfail.runs hinv a aw l

theorem Continues.storeByte {s : State} (hseq : s.seq = .rByteRx) :
    Continues s (fun u => storeByte { u with await := 0 }) where
  link _ _ _ _ h := (storeByte_delivers hseq h).link
  runs hinv a aw l := by
    have hmore : s.cursor.toNat < s.args.len.toNat := by simpa [countersOk, hseq] using hinv.counters
    simp [Machine.storeByte, moreBytes, hmore]

theorem Continues.checkStatus (last : Bool) (r : Half) (s : State) : Continues s (checkStatus last r) :=
  .ite (.next fun u => nextInput_link last { u with remain := r }) (.next fun u => raiseError_link _ _ u)

/-! ## The call of the frame in flight -/

/-- The one transport call that executing the frame `i` in flight makes: a `TX` of the frame's bytes, or an `RX` of the
size its phase asks for; a chunk past LEN would stop before its call. -/
inductive DueCall (s : State) (i : Instr) : Out → Prop
  | send (cls : ExchangeClass) (k : BitVec 17) (ph : Seq) (phase : sendPhase s.seq = true) :
      DueCall s i (sendFrame cls (frameBytes s.params i) k ph s)
  | sendUnchecked (ph : Seq) (phase : sendPhase s.seq = true) :
      DueCall s i (sendBestEffort (frameBytes s.params i) ph s)
  | overrun (phase : s.seq = .wPayTx) (past : s.args.len.toNat < s.cursor.toNat + s.chunkN.toNat) :
      DueCall s i (.fault .bufferOverrun)
  | receive (cls : ExchangeClass) (n : Nat) (go : State → Out) (phase : receivePhase s.seq = true)
      (size : n = receiveSize s) (continues : Continues s go) : DueCall s i (receiveExactly cls n go s)
  | receiveInput (last : Bool) (phase : s.seq = .xDataRx last) : DueCall s i (receiveInput last s)

/-- The receive half of an exchange, with the state update that follows a validated acknowledgment. -/
theorem DueCall.ack {s : State} {i : Instr} {cls : ExchangeClass} {n : Nat} {after : State → State}
    (phase : receivePhase s.seq = true) (size : n = receiveSize s) (hafter : ∀ u, (after u).link = u.link) :
    DueCall s i (receiveAck cls n (fun u => .next (after u)) s) :=
  .receive cls n _ phase size (.next fun _ => hafter _)

/-- The same, of a negotiation exchange. -/
theorem DueCall.literal {s : State} {i : Instr} {literal : List Byte} {after : State → State}
    (phase : receivePhase s.seq = true) (size : literal.length = receiveSize s)
    (hafter : ∀ u, (after u).link = u.link) :
    DueCall s i (receiveLiteral literal (fun u => .next (after u)) s) :=
  .receive .neg _ _ phase size (.ite (.next fun _ => hafter _) (.next fun _ => raiseError_link _ _ _))

theorem execEnterBinary_dueCall {s : State} (phase : s.seq ∈ [.iBinTx, .iBinRx]) :
    DueCall s .enterBinary (execEnterBinary s) := by
  obtain hseq | hseq := List.mem_pair.mp phase <;> simp only [execEnterBinary, hseq]
  · exact .send _ _ _ (by simp [hseq, sendPhase])
  · exact .literal (by simp [hseq, receivePhase]) (by simp [hseq, receiveSize, owed, binaryAck]) (fun _ => rfl)

theorem execEnterI2c_dueCall {s : State} (phase : s.seq ∈ [.iI2cTx, .iI2cRx]) :
    DueCall s .enterI2c (execEnterI2c s) := by
  obtain hseq | hseq := List.mem_pair.mp phase <;> simp only [execEnterI2c, hseq]
  · exact .send _ _ _ (by simp [hseq, sendPhase])
  · exact .literal (by simp [hseq, receivePhase]) (by simp [hseq, receiveSize, owed, i2cAck]) (fun _ => rfl)

theorem execResetTerm_dueCall {s : State} (phase : s.seq = .cResetTx ∨ ∃ e, s.seq = .aResetTx e) :
    DueCall s .resetTerm (execResetTerm s) := by
  obtain hseq | ⟨e, hseq⟩ := phase <;> simp only [execResetTerm, hseq]
  · exact .sendUnchecked _ (by simp [hseq, sendPhase])
  · exact .sendUnchecked _ (by simp [hseq, sendPhase])

theorem execAddrSelect_dueCall {dev : BitVec 7} {dir : Direction} {reg : Byte} {s : State}
    (phase : s.seq ∈ [.wAddrTx, .wAddrRx, .rAddrTx, .rAddrRx]) :
    DueCall s (.addrSelect dev dir reg) (execAddrSelect dev dir reg s) := by
  simp only [List.mem_cons, List.not_mem_nil, or_false] at phase
  obtain hseq | hseq | hseq | hseq := phase <;> simp only [execAddrSelect, hseq]
  · exact .send _ _ _ (by simp [hseq, sendPhase])
  · exact .ack (by simp [hseq, receivePhase]) (by simp [hseq, receiveSize, owed]) (fun _ => nextChunk_link _)
  · exact .send _ _ _ (by simp [hseq, sendPhase])
  · exact .ack (by simp [hseq, receivePhase]) (by simp [hseq, receiveSize, owed]) (fun _ => rfl)

theorem execReselectRead_dueCall {dev : BitVec 7} {s : State} (phase : s.seq ∈ [.rReselTx, .rReselRx]) :
    DueCall s (.reselectRead dev) (execReselectRead dev s) := by
  obtain hseq | hseq := List.mem_pair.mp phase <;> simp only [execReselectRead, hseq]
  · exact .send _ _ _ (by simp [hseq, sendPhase])
  · exact .ack (by simp [hseq, receivePhase]) (by simp [hseq, receiveSize, owed]) (fun _ => nextByte_link _)

theorem execBulkHdr_dueCall {n : BitVec 4} {s : State} (phase : s.seq ∈ [.wHdrTx, .wHdrRx]) :
    DueCall s (.bulkHdr n) (execBulkHdr n s) := by
  obtain hseq | hseq := List.mem_pair.mp phase <;> simp only [execBulkHdr, hseq]
  · exact .send _ _ _ (by simp [hseq, sendPhase])
  · exact .ack (by simp [hseq, receivePhase]) (by simp [hseq, receiveSize, owed]) (fun _ => rfl)

/-- The payload in flight has CHUNK_N bytes, so its acknowledgment has as many (R68). -/
theorem execBulkPayload_dueCall {s : State} (phase : s.seq ∈ [.wPayTx, .wPayRx]) :
    DueCall s (.bulkPayload (payloadOf s)) (execBulkPayload (payloadOf s) s) := by
  obtain hseq | hseq := List.mem_pair.mp phase <;> simp only [execBulkPayload, hseq, payloadOf_length]
  · split
    · exact .overrun hseq ‹_›
    · exact .send _ _ _ (by simp [hseq, sendPhase])
  · exact .ack (by simp [hseq, receivePhase]) (by simp [hseq, receiveSize, owed]) (fun _ => nextChunk_link _)

theorem execStop_dueCall {s : State} (phase : s.seq ∈ [.wStopTx, .wStopRx]) : DueCall s .stop (execStop s) := by
  obtain hseq | hseq := List.mem_pair.mp phase <;> simp only [execStop, hseq]
  · exact .send _ _ _ (by simp [hseq, sendPhase])
  · exact .ack (by simp [hseq, receivePhase]) (by simp [hseq, receiveSize, owed]) (fun _ => rfl)

theorem execReadByte_dueCall {s : State} (phase : s.seq ∈ [.rByteTx, .rByteRx]) :
    DueCall s .readByte (execReadByte s) := by
  obtain hseq | hseq := List.mem_pair.mp phase <;> simp only [execReadByte, hseq]
  · exact .send _ _ _ (by simp [hseq, sendPhase])
  · exact .receive _ _ _ (by simp [hseq, receivePhase]) (by simp [hseq, receiveSize, owed]) (.storeByte hseq)

theorem execEndRead_dueCall {s : State} (phase : s.seq ∈ [.rEndTx, .rEndRx]) :
    DueCall s .endRead (execEndRead s) := by
  obtain hseq | hseq := List.mem_pair.mp phase <;> simp only [execEndRead, hseq]
  · exact .send _ _ _ (by simp [hseq, sendPhase])
  · exact .ack (by simp [hseq, receivePhase]) (by simp [hseq, receiveSize, owed]) (fun _ => rfl)

theorem execWtr_dueCall {r : Half} {out : List Byte} {last : Bool} {s : State}
    (phase : s.seq ∈ [.xCmdTx last, .xStatRx last, .xDataRx last]) : DueCall s (.wtr r out) (execWtr r out s) := by
  simp only [List.mem_cons, List.not_mem_nil, or_false] at phase
  obtain hseq | hseq | hseq := phase <;> simp only [execWtr, hseq]
  · exact .send _ _ _ (by simp [hseq, sendPhase])
  · exact .receive _ _ _ (by simp [hseq, receivePhase]) (by simp [hseq, receiveSize]) (.checkStatus last r s)
  · exact .receiveInput last hseq

theorem FrameInFlight.dueCall {s : State} {i : Instr} (h : FrameInFlight s i) : DueCall s i (exec i s) := by
  cases h with
  | enterBinary phase => exact execEnterBinary_dueCall phase
  | enterI2c phase => exact execEnterI2c_dueCall phase
  | addrSelect phase => exact execAddrSelect_dueCall phase
  | reselectRead phase => exact execReselectRead_dueCall phase
  | bulkHdr phase => exact execBulkHdr_dueCall phase
  | bulkPayload phase => exact execBulkPayload_dueCall phase
  | stop phase => exact execStop_dueCall phase
  | readByte phase => exact execReadByte_dueCall phase
  | endRead phase => exact execEndRead_dueCall phase
  | resetTerm phase => exact execResetTerm_dueCall phase
  | wtr last phase =>
    obtain ⟨r, out, hwtr⟩ := wtrOf_wtr last s
    rw [hwtr]
    exact execWtr_dueCall phase

/-! ## What the history gains -/

/-- The calls that move no byte (R91, R92, R95). -/
def isControl : Call → Bool
  | .openPath _ _ | .configure _ _ | .release => true
  | .tx _ _ | .rx _ _ => false

/-- The ways executing `i` adds to the history: nothing, a control call, one `TX` of the frame's bytes, or one `RX` of
the size the phase asks for. -/
inductive WireStep (s : State) (i : Instr) (t : State) : Prop
  | kept (wire : t.link.wire = s.link.wire)
  | control (c : Call) (control : isControl c = true) (wire : t.link.wire = s.link.wire ++ [c])
  | sent (r : TxResult) (l : Link) (call : Sent (frameBytes s.params i) s r l) (link : t.link = l)
  | received (r : RxResult) (ab : List Byte) (aw : BitVec 17) (l : Link) (call : Received (receiveSize s) s r ab aw l)
      (link : t.link = l)

theorem RaisedBy.wireStep {cls : ExchangeClass} {e : Status} {s t : State} {i : Instr}
    (h : RaisedBy cls (receiveSize s) e s t) : WireStep s i t := by
  obtain ⟨r, ab, aw, l, e', hrecv, -, rfl⟩ := h
  exact .received r ab aw l hrecv (raiseError_link _ _ _)

theorem receiveSize_of_status {s : State} {last : Bool} (hseq : s.seq = .xStatRx last) : receiveSize s = 1 := by
  simp [receiveSize, hseq]

theorem receiveSize_of_input {s : State} {last : Bool} (hseq : s.seq = .xDataRx last) :
    receiveSize s = s.chunkN.toNat := by
  simp [receiveSize, hseq]

/-- Outside a combined frame the whole acknowledgment is asked for in one call (R98). -/
theorem receiveSize_of_acknowledgment {s : State} (hstat : ∀ last, s.seq ≠ .xStatRx last)
    (hdata : ∀ last, s.seq ≠ .xDataRx last) : receiveSize s = owed s := by
  unfold receiveSize
  split
  · exact absurd ‹_› (hstat _)
  · exact absurd ‹_› (hdata _)
  · rfl

theorem DueCall.wireStep {s t : State} {i : Instr} {o : Out} (hcall : DueCall s i o) (h : o = .next t) :
    WireStep s i t := by
  cases hcall with
  | send cls k ph phase =>
    obtain rfl | ⟨r, l, hsent, ⟨-, rfl⟩ | ⟨-, rfl⟩⟩ := sendFrame_shape h
    · exact .kept rfl
    · exact .sent r l hsent rfl
    · exact .sent r l hsent (raiseError_link _ _ _)
  | sendUnchecked ph phase =>
    obtain rfl | ⟨r, l, hsent, rfl⟩ := sendBestEffort_shape h
    · exact .kept rfl
    · exact .sent r l hsent rfl
  | overrun phase past => cases h
  | receive cls n go phase size continues =>
    subst size
    obtain rfl | hraise | ⟨a, aw, l, hrecv, -, hnext⟩ := receiveExactly_shape h
    · exact .kept rfl
    · exact hraise.wireStep
    · exact .received _ a aw l hrecv (continues.link a aw l t hnext)
  | receiveInput last phase =>
    obtain rfl | hraise | ⟨a, aw, l, hrecv, -, hstore⟩ := receiveInput_shape h
    · exact .kept rfl
    · exact (receiveSize_of_input phase ▸ hraise).wireStep
    · exact .received _ a aw l (receiveSize_of_input phase ▸ hrecv) (storeInput_delivers phase hstore).link

theorem execInit_wireStep {q : Operands} {s t : State} {i : Instr} (h : execInit q s = .next t) :
    WireStep s i t := by
  unfold execInit at h
  split at h
  · cases h
    exact .kept rfl
  · split at h
    · cases h
      exact .kept rfl
    · split at h <;> cases h
      · exact .kept rfl
      · obtain ⟨-, rest, -, rfl⟩ := openTransport_returned ‹_›
        exact .control _ rfl rfl
      · obtain ⟨-, rest, -, rfl⟩ := openTransport_returned ‹_›
        exact .control _ rfl rfl
    · split at h <;> cases h
      · exact .kept rfl
      · obtain ⟨-, rest, -, rfl⟩ := configureLine_returned ‹_›
        exact .control _ rfl rfl
      · obtain ⟨-, rest, -, rfl⟩ := configureLine_returned ‹_›
        exact .control _ rfl rfl
    · cases h
      exact .kept rfl
    · split at h <;> cases h
      · exact .kept rfl
      · obtain ⟨-, rfl⟩ := releaseTransport_returned ‹_›
        exact .control _ rfl rfl
    · cases h
      exact .kept rfl
    · cases h

theorem execClose_wireStep {q : Operands} {s t : State} {i : Instr} (h : execClose q s = .next t) :
    WireStep s i t := by
  unfold execClose at h
  split at h
  · cases h
    exact .kept rfl
  · split at h
    · cases h
      exact .kept rfl
    · split at h <;> cases h
      · exact .kept rfl
      · obtain ⟨-, rfl⟩ := releaseTransport_returned ‹_›
        exact .control _ rfl rfl
    · cases h
      exact .kept rfl
    · cases h

theorem afterCheck_link (result : Option Status) (done : Status → Seq) (go : Seq) (s : State) :
    (afterCheck result done go s).link = s.link := by
  cases result <;> rfl

theorem afterCombinedCheck_link (result : Option Status) (last : Bool) (s : State) :
    (afterCombinedCheck result last s).link = s.link := by
  cases result <;> rfl

theorem execWrite_link {q : Operands} {s t : State} (h : execWrite q s = .next t) : t.link = s.link := by
  unfold execWrite at h
  split at h
  · cases h
    rfl
  · split at h <;> cases h
    · exact afterCheck_link _ _ _ s
    · exact afterCombinedCheck_link _ _ s
    · rfl
    · rfl
    · rfl

theorem execRead_link {q : Operands} {s t : State} (h : execRead q s = .next t) : t.link = s.link := by
  unfold execRead at h
  split at h
  · cases h
    rfl
  · split at h <;> cases h
    · exact afterCheck_link _ _ _ s
    · exact afterCombinedCheck_link _ _ s
    · rfl
    · rfl
    · rfl

theorem execDelay_link {q : Operands} {s t : State} (h : execDelay q s = .next t) : t.link = s.link := by
  unfold execDelay at h
  split at h
  · cases h
    rfl
  · split at h <;> cases h
    · rfl
    · rfl

/-- The host port brings no wire frame (R60). -/
theorem decodeRequest_not_frame (r : Request) : isFrame (decodeRequest r) = false := by
  unfold decodeRequest
  split_ifs <;> rfl

/-- A frame that is due is the frame in flight. -/
theorem fetch_frame {s : State} {i : Instr} (hf : fetch s = some i) (hframe : isFrame i = true) :
    FrameInFlight s i := by
  cases hb : s.busy with
  | true => exact phaseInstr_frame (by rw [← fetch_of_busy hb, hf]) hframe
  | false =>
    obtain ⟨r, -, rfl⟩ := Option.map_eq_some_iff.mp (fetch_of_idle hb ▸ hf)
    rw [decodeRequest_not_frame] at hframe
    cases hframe

theorem exec_wireStep {s t : State} {i : Instr} (hf : fetch s = some i) (h : exec i s = .next t) :
    WireStep s i t := by
  cases i with
  | init q => exact execInit_wireStep h
  | close q => exact execClose_wireStep h
  | write q => exact .kept (by rw [execWrite_link h])
  | read q => exact .kept (by rw [execRead_link h])
  | delay q => exact .kept (by rw [execDelay_link h])
  | reservedOp5 q | reservedOp6 q | reservedOp7 q => cases h
  | _ => exact (fetch_frame hf rfl).dueCall.wireStep h

/-- A step without a reset leaves the history alone, or adds to it what its due instruction adds. -/
theorem step_wireStep {s t : State} (hr : s.resetReq = none) (h : step s = .next t) :
    t.link.wire = s.link.wire ∨ ∃ i, fetch s = some i ∧ WireStep s i t := by
  obtain ⟨-, rfl⟩ | ⟨i, hf, hexec⟩ := step_next hr h
  · exact .inl rfl
  · exact .inr ⟨i, hf, exec_wireStep hf hexec⟩

end Sys2Proof.Machine
end

section
/-!
PROOFS. The statements about the transport arbiter (40_transport_arbiter R97, R98, R103, R104): when it sends and
receives, how an operation starts and ends, and that no step from a legal state stops.
-/
namespace Sys2Proof.Machine

/-! ## Sends and receives -/

/-- Settles O15: the only call of a step that is a `TX` is the one of the frame in flight, and it had its permission. -/
theorem sendsOnlyWhenNothingIsOwed : Obligations.SendsOnlyWhenNothingIsOwed := by
  intro s t bytes r hr h hwire
  obtain hsame | ⟨i, hf, hstep⟩ := step_wireStep hr h
  · simp [hsame] at hwire
  · cases hstep with
    | kept hsame => simp [hsame] at hwire
    | control c hcontrol hgrown =>
      obtain rfl : c = .tx bytes r := by simpa [hgrown] using hwire
      cases hcontrol
    | sent r' l call link =>
      obtain ⟨-, -, -, -, hgrown⟩ := call.keeps
      obtain ⟨rfl, rfl⟩ : frameBytes s.params i = bytes ∧ r' = r := by simpa [link, hgrown] using hwire
      exact ⟨call.free, call.held, call.nonempty, i, hf, rfl⟩
    | received r' ab aw l call link =>
      obtain ⟨-, -, -, hgrown⟩ := call.keeps
      simp [link, hgrown] at hwire

theorem Inv.chunkN_of_input {s : State} {last : Bool} (hinv : Inv s) (hseq : s.seq = .xDataRx last) :
    s.chunkN = inputChunk s.remain := by
  have hcount := hinv.counters
  simp only [countersOk, hseq] at hcount
  exact hcount.2.2

/-- Settles O16: the only call of a step that is an `RX` asks for the size of its phase, which a legal state ties to
what is owed. -/
theorem receivesOnlyWhatIsOwed : Obligations.ReceivesOnlyWhatIsOwed := by
  intro s t n r hinv hr h hwire
  obtain hsame | ⟨i, hf, hstep⟩ := step_wireStep hr h
  · simp [hsame] at hwire
  · cases hstep with
    | kept hsame => simp [hsame] at hwire
    | control c hcontrol hgrown =>
      obtain rfl : c = .rx n r := by simpa [hgrown] using hwire
      cases hcontrol
    | sent r' l call link =>
      obtain ⟨-, -, -, -, hgrown⟩ := call.keeps
      simp [link, hgrown] at hwire
    | received r' ab aw l call link =>
      obtain ⟨-, -, -, hgrown⟩ := call.keeps
      obtain ⟨rfl, rfl⟩ : receiveSize s = n ∧ r' = r := by simpa [link, hgrown] using hwire
      refine ⟨(Nat.pos_of_ne_zero call.nonzero).trans_le call.owed, call.owed, ?_⟩
      split
      · exact receiveSize_of_status ‹_›
      · rw [receiveSize_of_input ‹_›, hinv.chunkN_of_input ‹_›, inputChunk_toNat]
      · rename_i hstat hdata
        rw [receiveSize_of_acknowledgment hstat hdata, hinv.await_owed]

/-! ## How an operation starts and ends -/

theorem firstPhase_eq_ite (strat : Strategy) (perByte : Seq) :
    firstPhase strat perByte = if strat = .combined then .xCheck else perByte := by
  cases strat <;> rfl

/-- Settles O28: on an idle block each operation is one `accept`. -/
theorem acceptanceLatchesTheRequest : Obligations.AcceptanceLatchesTheRequest := by
  intro q s hb
  refine ⟨?_, ?_, ?_, ?_, ?_⟩
  · simp [exec, execInit, hb, accept]
  · simp [exec, execClose, hb, accept]
  · simp [exec, execWrite, hb, accept, firstPhase_eq_ite]
  · simp [exec, execRead, hb, accept, firstPhase_eq_ite]
  · simp [exec, execDelay, hb, accept]

/-- Settles O34: each done phase is one `complete`, and the abort phase one `abortTransaction`. -/
theorem transactionEnds : Obligations.TransactionEnds := by
  intro q s r hb
  refine ⟨?_, ?_, fun hseq => ⟨?_, ?_⟩⟩
  · rintro (hseq | hseq) <;> simp [exec, execWrite, hb, hseq, complete]
  · rintro (hseq | hseq) <;> simp [exec, execRead, hb, hseq, complete]
  · simp [exec, execWrite, hb, hseq, abortTransaction, complete]
  · simp [exec, execRead, hb, hseq, abortTransaction, complete]

/-! ## The permissions a legal state gives (R91 to R98) -/

theorem openTransport_ne_fault {p : Path} {s : State} {f : Fault} (hc : s.conn = .closed) :
    openTransport p s ≠ .fault f := by
  unfold openTransport
  split
  · exact absurd hc ‹_›
  · split <;> exact nofun

theorem configureLine_ne_fault {s : State} {f : Fault} (hc : s.conn ≠ .closed) : configureLine s ≠ .fault f := by
  unfold configureLine
  split
  · exact absurd ‹_› hc
  · split <;> exact nofun

theorem releaseTransport_ne_fault {s : State} {f : Fault} (hc : s.conn ≠ .closed) :
    releaseTransport s ≠ .fault f := by
  unfold releaseTransport
  split
  · exact absurd ‹_› hc
  · exact nofun

theorem Inv.held_of_sendPhase {s : State} (hinv : Inv s) (hphase : sendPhase s.seq = true) : s.conn ≠ .closed := by
  have hconn := hinv.conn_legal
  intro hclosed
  unfold sendPhase at hphase
  split at hphase <;> simp_all [connAt]

theorem Inv.await_of_sendPhase {s : State} (hinv : Inv s) (hphase : sendPhase s.seq = true) : s.await = 0 := by
  apply BitVec.eq_of_toNat_eq
  rw [hinv.await_owed]
  unfold sendPhase at hphase
  split at hphase <;> simp_all [owed]

/-- In a send phase the `TX` of any byte is permitted (R93, R97). -/
theorem Inv.transmit_ne_fault {s : State} {bytes : List Byte} {f : Fault} (hinv : Inv s)
    (hphase : sendPhase s.seq = true) (hbytes : bytes ≠ []) : transmit bytes s ≠ .fault f := by
  intro hfault
  obtain hclosed | hawait | hnil := transmit_fault hfault
  · exact hinv.held_of_sendPhase hphase hclosed
  · exact hawait (hinv.await_of_sendPhase hphase)
  · exact hbytes hnil

theorem Inv.owed_ne_zero {s : State} (hinv : Inv s) (hphase : receivePhase s.seq = true) : owed s ≠ 0 := by
  have hcount := hinv.counters
  cases hseq : s.seq <;> simp only [hseq, receivePhase, owed, countersOk, reduceCtorEq] at hphase hcount ⊢
  case wPayRx =>
    obtain ⟨hpos, -⟩ := hinv.chunkN_bounds (by simp [hseq, chunkExchange])
    omega
  case xDataRx last => exact fun hzero => hcount.1 (BitVec.eq_of_toNat_eq hzero)
  all_goals omega

/-- In a receive phase the `RX` of its size is permitted (R94, R98). -/
theorem Inv.receive_ne_fault {s : State} {f : Fault} (hinv : Inv s) (hphase : receivePhase s.seq = true) :
    receive (receiveSize s) s ≠ .fault f := by
  have howed := hinv.owed_ne_zero hphase
  intro hfault
  obtain hclosed | hzero | hlarge | hexcess := receive_fault hfault
  · exact hinv.held_of_owed howed hclosed
  · exact hinv.receiveSize_ne_zero howed hzero
  · exact hinv.receiveSize_le_chunkR.not_gt hlarge
  · exact (hinv.await_owed ▸ hinv.receiveSize_le_owed).not_gt hexcess

/-- The chunk in flight ends within LEN (R42, R171). -/
theorem Inv.chunk_within_len {s : State} (hinv : Inv s) (hseq : s.seq = .wPayTx) :
    s.cursor.toNat + s.chunkN.toNat ≤ s.args.len.toNat := by
  have hcount := hinv.counters
  simp only [countersOk, hseq] at hcount
  obtain ⟨-, hmore, hchunk⟩ := hcount
  rw [hchunk, writeChunk_toNat]
  omega

/-- What one receive of the input phase returns ends within LEN (R42, R151). -/
theorem Inv.input_within_len {s : State} {last : Bool} (hinv : Inv s) (hseq : s.seq = .xDataRx last) :
    s.cursor.toNat + s.chunkN.toNat ≤ s.args.len.toNat := by
  have hcount := hinv.counters
  simp only [countersOk, hseq] at hcount
  obtain ⟨-, hrest, hchunk⟩ := hcount
  rw [hchunk, inputChunk_toNat]
  omega

/-! ## No step stops -/

/-- A frame the block emits has at least one byte (R62, R68). -/
theorem frameBytes_ne_nil {p : Params} {i : Instr} (hframe : isFrame i = true) (hwf : i.wellFormed = true) :
    frameBytes p i ≠ [] := by
  cases i with
  | bulkPayload data =>
    rintro rfl
    cases hwf
  | init | close | write | read | delay | reservedOp5 | reservedOp6 | reservedOp7 => cases hframe
  | _ => exact nofun

theorem sendFrame_runs {cls : ExchangeClass} {bytes : List Byte} {k : BitVec 17} {ph : Seq} {s : State}
    (hsend : ∀ f, transmit bytes s ≠ .fault f) : ∃ t, sendFrame cls bytes k ph s = .next t := by
  unfold sendFrame
  split
  · exact absurd ‹_› (hsend _)
  · exact ⟨_, rfl⟩
  · split <;> exact ⟨_, rfl⟩

theorem sendBestEffort_runs {bytes : List Byte} {ph : Seq} {s : State} (hsend : ∀ f, transmit bytes s ≠ .fault f) :
    ∃ t, sendBestEffort bytes ph s = .next t := by
  unfold sendBestEffort
  split
  · exact absurd ‹_› (hsend _)
  · exact ⟨_, rfl⟩
  · exact ⟨_, rfl⟩

theorem receiveExactly_runs {cls : ExchangeClass} {n : Nat} {go : State → Out} {s : State}
    (hreceive : ∀ f, receive n s ≠ .fault f)
    (hgo : ∀ a aw l, ∃ t, go { s with abuf := a, await := aw, link := l } = .next t) :
    ∃ t, receiveExactly cls n go s = .next t := by
  obtain ⟨f, hfault, -⟩ | hwait | ⟨e, u, -, -, hraise⟩ | ⟨a, u, hreturned, -, -, hnext⟩ :=
    receiveExactly_cases cls n go s
  · exact absurd hfault (hreceive f)
  · exact ⟨s, hwait⟩
  · exact ⟨_, hraise⟩
  · obtain ⟨ab, aw, l, -, rfl⟩ := receive_received hreturned
    rw [hnext]
    exact hgo ab aw l

theorem receiveInput_runs {last : Bool} {s : State} (hreceive : ∀ f, receive s.chunkN.toNat s ≠ .fault f)
    (hroom : s.cursor.toNat + s.chunkN.toNat ≤ s.args.len.toNat) : ∃ t, receiveInput last s = .next t := by
  unfold receiveInput
  split
  · exact absurd ‹_› (hreceive _)
  · exact ⟨_, rfl⟩
  · exact ⟨_, rfl⟩
  · exact ⟨_, rfl⟩
  · obtain ⟨ab, aw, l, hrecv, rfl⟩ := receive_received ‹_›
    obtain ⟨-, -, hlen⟩ := hrecv.bytes
    split
    · exact ⟨_, rfl⟩
    · rw [storeInput, if_neg (by simp only; omega)]
      exact ⟨_, rfl⟩

/-- From a legal state the call of the frame in flight returns or waits. -/
theorem DueCall.runs {s : State} {i : Instr} {o : Out} (hcall : DueCall s i o) (hinv : Inv s)
    (hbytes : frameBytes s.params i ≠ []) : ∃ t, o = .next t := by
  cases hcall with
  | send cls k ph phase => exact sendFrame_runs fun _ => hinv.transmit_ne_fault phase hbytes
  | sendUnchecked ph phase => exact sendBestEffort_runs fun _ => hinv.transmit_ne_fault phase hbytes
  | overrun phase past => exact absurd past (hinv.chunk_within_len phase).not_gt
  | receive cls n go phase size continues =>
    exact receiveExactly_runs (size ▸ fun _ => hinv.receive_ne_fault phase) (continues.runs hinv)
  | receiveInput last phase =>
    refine receiveInput_runs (fun _ => ?_) (hinv.input_within_len phase)
    exact receiveSize_of_input phase ▸ hinv.receive_ne_fault (by simp [phase, receivePhase])

theorem execInit_open_runs {q : Operands} {s : State} (hb : s.busy = true) (hseq : s.seq = .iOpen)
    (hclosed : s.conn = .closed) : ∃ t, execInit q s = .next t := by
  simp only [execInit, hb, hseq, Bool.true_eq_false, if_false]
  split
  · exact absurd ‹_› (openTransport_ne_fault hclosed)
  · exact ⟨_, rfl⟩
  · exact ⟨_, rfl⟩
  · exact ⟨_, rfl⟩

theorem execInit_configure_runs {q : Operands} {s : State} (hb : s.busy = true) (hseq : s.seq = .iConfig)
    (hheld : s.conn ≠ .closed) : ∃ t, execInit q s = .next t := by
  simp only [execInit, hb, hseq, Bool.true_eq_false, if_false]
  split
  · exact absurd ‹_› (configureLine_ne_fault hheld)
  · exact ⟨_, rfl⟩
  · exact ⟨_, rfl⟩
  · exact ⟨_, rfl⟩

theorem execInit_release_runs {q : Operands} {s : State} {e : Status} (hb : s.busy = true)
    (hseq : s.seq = .aRelease e) (hheld : s.conn ≠ .closed) : ∃ t, execInit q s = .next t := by
  simp only [execInit, hb, hseq, Bool.true_eq_false, if_false]
  split
  · exact absurd ‹_› (releaseTransport_ne_fault hheld)
  · exact ⟨_, rfl⟩
  · exact ⟨_, rfl⟩

theorem execClose_release_runs {q : Operands} {s : State} (hb : s.busy = true) (hseq : s.seq = .cRelease)
    (hheld : s.conn ≠ .closed) : ∃ t, execClose q s = .next t := by
  simp only [execClose, hb, hseq, Bool.true_eq_false, if_false]
  split
  · exact absurd ‹_› (releaseTransport_ne_fault hheld)
  · exact ⟨_, rfl⟩
  · exact ⟨_, rfl⟩

/-- WRITE and READ share the phases that a raise and the Combined strategy use (R16). -/
theorem transactionOf_runs {s : State} (hb : s.busy = true)
    (hphase : s.seq = .xCheck ∨ (∃ r, s.seq = .xDone r) ∨ ∃ e, s.seq = .raised e) :
    ∃ t, exec (transactionOf s) s = .next t := by
  unfold transactionOf
  obtain hseq | ⟨r, hseq⟩ | ⟨e, hseq⟩ := hphase <;> split
  all_goals simp [exec, execWrite, execRead, hb, hseq]

/-- In a phase of a host operation the operation in flight goes on: its control calls have their preconditions. -/
theorem operation_runs {s : State} {i : Instr} (hinv : Inv s) (hb : s.busy = true) (hdue : phaseInstr s = some i)
    (hop : isFrame i = false) : ∃ t, exec i s = .next t := by
  have hconn := hinv.conn_legal
  cases hseq : s.seq <;> simp only [phaseInstr, hseq] at hdue <;> cases hdue
  case iCheck | iDone | aDone => simp [exec, execInit, hb, hseq]
  case iOpen => exact execInit_open_runs hb hseq (by simpa [connAt, hseq] using hconn)
  case iConfig => exact execInit_configure_runs hb hseq fun hclosed => by simp [connAt, hseq, hclosed] at hconn
  case aRelease => exact execInit_release_runs hb hseq fun hclosed => by simp [connAt, hseq, hclosed] at hconn
  case cCheck | cDone => simp [exec, execClose, hb, hseq]
  case cRelease => exact execClose_release_runs hb hseq fun hclosed => by simp [connAt, hseq, hclosed] at hconn
  case wCheck | wDone => simp [exec, execWrite, hb, hseq]
  case rCheck | rDone => simp [exec, execRead, hb, hseq]
  case xCheck | xDone | raised => exact transactionOf_runs hb (by simp [hseq])
  case dWait | dDone => simp [exec, execDelay, hb, hseq]
  case xCmdTx last | xStatRx last | xDataRx last =>
    obtain ⟨r, out, hwtr⟩ := wtrOf_wtr last s
    rw [hwtr] at hop
    cases hop
  all_goals cases hop

theorem Inv.due_of_busy {s : State} (hinv : Inv s) (hb : s.busy = true) : ∃ i, phaseInstr s = some i := by
  have hrunning := hinv.busy_iff_running.mp hb
  unfold phaseInstr
  split
  · exact absurd ‹_› hrunning
  all_goals exact ⟨_, rfl⟩

/-- While an operation is in flight a legal state goes on to a next state. -/
theorem exec_of_busy_runs {s : State} {i : Instr} (hinv : Inv s) (hb : s.busy = true) (hdue : phaseInstr s = some i) :
    ∃ t, exec i s = .next t := by
  cases hframe : isFrame i with
  | true =>
    have hflight := phaseInstr_frame hdue hframe
    exact hflight.dueCall.runs hinv (frameBytes_ne_nil hframe (hflight.wellFormed_eq_true hinv))
  | false => exact operation_runs hinv hb hdue hframe

/-- An idle block accepts a request (R103) or refuses its reserved operation code (R77). -/
theorem exec_of_request {s : State} (hb : s.busy = false) (q : Request) :
    (∃ t, exec (decodeRequest q) s = .next t) ∨
      (5 ≤ q.op.toNat ∧ exec (decodeRequest q) s = .refused (.reservedOperation q.op)) := by
  obtain ⟨hinit, hclose, hwrite, hread, hdelay⟩ := acceptanceLatchesTheRequest q.args s hb
  unfold decodeRequest
  split_ifs with h0 h1 h2 h3 h4 h5 h6
  · exact .inl ⟨_, hinit⟩
  · exact .inl ⟨_, hclose⟩
  · exact .inl ⟨_, hwrite⟩
  · exact .inl ⟨_, hread⟩
  · exact .inl ⟨_, hdelay⟩
  · exact .inr ⟨by simp [h5], by rw [h5]; rfl⟩
  · exact .inr ⟨by simp [h6], by rw [h6]; rfl⟩
  · have h7 : q.op = 7 := by bv_omega
    exact .inr ⟨by simp [h7], by rw [h7]; rfl⟩

/-- A step from a legal state leads on, or is refused for the reserved operation code of the request at the port. -/
theorem Inv.step_cases {s : State} (hinv : Inv s) :
    (∃ t, step s = .next t) ∨
      (s.busy = false ∧ ∃ q, s.port = some q ∧ 5 ≤ q.op.toNat ∧
        step s = .refused (.reservedOperation q.op)) := by
  obtain ⟨hdue, haccept, hwaits⟩ := stepRunsTheDueInstruction
  cases hr : s.resetReq with
  | some backlog => exact .inl ⟨_, step_of_reset hr⟩
  | none =>
    cases hb : s.busy with
    | true =>
      obtain ⟨i, hi⟩ := hinv.due_of_busy hb
      exact .inl (hdue s i hr hb hi ▸ exec_of_busy_runs hinv hb hi)
    | false =>
      cases hp : s.port with
      | none => exact .inl ⟨s, hwaits s hr hb hp⟩
      | some q =>
        rw [haccept s q hr hb hp]
        exact (exec_of_request hb q).imp_right fun ⟨hcode, hrefused⟩ => ⟨rfl, q, rfl, hcode, hrefused⟩

/-- Settles O12: a legal state gives every call that is due its permission and bounds every buffer access, so only a
reserved operation code stops the machine. -/
theorem legalNeverStopsButForReserved : Obligations.LegalNeverStopsButForReserved := by
  intro s hinv
  obtain ⟨t, hnext⟩ | ⟨hb, q, hport, hcode, hrefused⟩ := hinv.step_cases
  · simp [hnext]
  · refine ⟨fun f => by simp [hrefused], fun r h => ⟨hb, q, hport, hcode, ?_⟩⟩
    simpa [hrefused, eq_comm] using h

end Sys2Proof.Machine
end

section
/-!
PROOFS. The edges of CONN (10_state R11; 41_mode_negotiator R120): which phase moves it, said once for every
instruction, and the statement about them.
-/
namespace Sys2Proof.Machine

/-- The ways a step without a reset treats CONN: it keeps it, or its phase is one of the five that move it (R11). -/
inductive ConnEdge (s t : State) : Prop
  | kept (conn : t.conn = s.conn)
  | opened (phase : s.seq = .iOpen) (answer : s.link.opens.head? = some .ok) (conn : t.conn = .unknown)
  | enteredBinary (phase : s.seq = .iBinRx) (ack : t.abuf = binaryAck) (conn : t.conn = .binaryMode)
  | enteredI2c (phase : s.seq = .iI2cRx) (ack : t.abuf = i2cAck) (conn : t.conn = .i2cMode)
  | aborted (e : Status) (phase : s.seq = .aRelease e) (conn : t.conn = .closed)
  | closed (phase : s.seq = .cRelease) (conn : t.conn = .closed)

theorem execInit_connEdge {q : Operands} {s t : State} (h : execInit q s = .next t) : ConnEdge s t := by
  unfold execInit at h
  split at h
  · cases h
    exact .kept rfl
  · split at h
    · cases h
      exact .kept rfl
    · rename_i hseq
      split at h <;> cases h
      · exact .kept rfl
      · obtain ⟨-, rest, hopens, rfl⟩ := openTransport_returned ‹_›
        exact .opened hseq (by simp [hopens]) rfl
      · obtain ⟨-, rest, -, rfl⟩ := openTransport_returned ‹_›
        exact .kept rfl
    · split at h <;> cases h
      · exact .kept rfl
      · obtain ⟨-, rest, -, rfl⟩ := configureLine_returned ‹_›
        exact .kept rfl
      · obtain ⟨-, rest, -, rfl⟩ := configureLine_returned ‹_›
        exact .kept rfl
    · cases h
      exact .kept rfl
    · rename_i e hseq
      split at h <;> cases h
      · exact .kept rfl
      · obtain ⟨-, rfl⟩ := releaseTransport_returned ‹_›
        exact .aborted e hseq rfl
    · cases h
      exact .kept rfl
    · cases h

theorem execClose_connEdge {q : Operands} {s t : State} (h : execClose q s = .next t) : ConnEdge s t := by
  unfold execClose at h
  split at h
  · cases h
    exact .kept rfl
  · split at h
    · cases h
      exact .kept rfl
    · rename_i hseq
      split at h <;> cases h
      · exact .kept rfl
      · obtain ⟨-, rfl⟩ := releaseTransport_returned ‹_›
        exact .closed hseq rfl
    · cases h
      exact .kept rfl
    · cases h

theorem afterCheck_conn (result : Option Status) (done : Status → Seq) (go : Seq) (s : State) :
    (afterCheck result done go s).conn = s.conn := by
  cases result <;> rfl

theorem afterCombinedCheck_conn (result : Option Status) (last : Bool) (s : State) :
    (afterCombinedCheck result last s).conn = s.conn := by
  cases result <;> rfl

theorem execWrite_conn {q : Operands} {s t : State} (h : execWrite q s = .next t) : t.conn = s.conn := by
  unfold execWrite at h
  split at h
  · cases h
    rfl
  · split at h <;> cases h
    · exact afterCheck_conn _ _ _ s
    · exact afterCombinedCheck_conn _ _ s
    · rfl
    · rfl
    · rfl

theorem execRead_conn {q : Operands} {s t : State} (h : execRead q s = .next t) : t.conn = s.conn := by
  unfold execRead at h
  split at h
  · cases h
    rfl
  · split at h <;> cases h
    · exact afterCheck_conn _ _ _ s
    · exact afterCombinedCheck_conn _ _ s
    · rfl
    · rfl
    · rfl

theorem execDelay_conn {q : Operands} {s t : State} (h : execDelay q s = .next t) : t.conn = s.conn := by
  unfold execDelay at h
  split at h
  · cases h
    rfl
  · split at h <;> cases h
    · rfl
    · rfl

theorem execEnterBinary_connEdge {s t : State} (h : execEnterBinary s = .next t) : ConnEdge s t := by
  unfold execEnterBinary at h
  split at h
  · obtain rfl | ⟨r, l, -, ⟨-, rfl⟩ | ⟨-, rfl⟩⟩ := sendFrame_shape h
    · exact .kept rfl
    · exact .kept rfl
    · exact .kept rfl
  · rename_i hseq
    obtain rfl | ⟨r, ab, aw, l, e, -, -, rfl⟩ | ⟨aw, l, -, hnext⟩ := receiveLiteral_shape h
    · exact .kept rfl
    · exact .kept rfl
    · cases hnext
      exact .enteredBinary hseq rfl rfl
  · cases h

theorem execEnterI2c_connEdge {s t : State} (h : execEnterI2c s = .next t) : ConnEdge s t := by
  unfold execEnterI2c at h
  split at h
  · obtain rfl | ⟨r, l, -, ⟨-, rfl⟩ | ⟨-, rfl⟩⟩ := sendFrame_shape h
    · exact .kept rfl
    · exact .kept rfl
    · exact .kept rfl
  · rename_i hseq
    obtain rfl | ⟨r, ab, aw, l, e, -, -, rfl⟩ | ⟨aw, l, -, hnext⟩ := receiveLiteral_shape h
    · exact .kept rfl
    · exact .kept rfl
    · cases hnext
      exact .enteredI2c hseq rfl rfl
  · cases h

/-- The phases of every frame but ENTER_BINARY and ENTER_I2C negotiate nothing. -/
theorem FrameInFlight.negotiates_eq_false {s : State} {i : Instr} (h : FrameInFlight s i) (hbin : i ≠ .enterBinary)
    (hi2c : i ≠ .enterI2c) : negotiates s.seq = false := by
  cases h with
  | enterBinary phase => exact absurd rfl hbin
  | enterI2c phase => exact absurd rfl hi2c
  | _ phase =>
    unfold negotiates
    split <;> simp_all

theorem exec_connEdge {s t : State} {i : Instr} (hf : fetch s = some i) (h : exec i s = .next t) : ConnEdge s t := by
  have quiet_kept (kept : Quiet s t) (hbin : i ≠ .enterBinary) (hi2c : i ≠ .enterI2c) (hframe : isFrame i = true) :
      ConnEdge s t := by
    have hstill := (fetch_frame hf hframe).negotiates_eq_false hbin hi2c
    exact .kept (by simpa [hstill] using kept.conn)
  cases i with
  | init q => exact execInit_connEdge h
  | close q => exact execClose_connEdge h
  | write q => exact .kept (execWrite_conn h)
  | read q => exact .kept (execRead_conn h)
  | delay q => exact .kept (execDelay_conn h)
  | reservedOp5 q | reservedOp6 q | reservedOp7 q => cases h
  | enterBinary => exact execEnterBinary_connEdge h
  | enterI2c => exact execEnterI2c_connEdge h
  | addrSelect dev dir reg => exact quiet_kept (execAddrSelect_quiet h) nofun nofun rfl
  | reselectRead dev => exact quiet_kept (execReselectRead_quiet h) nofun nofun rfl
  | bulkHdr n => exact quiet_kept (execBulkHdr_quiet h) nofun nofun rfl
  | bulkPayload data => exact quiet_kept (execBulkPayload_quiet h) nofun nofun rfl
  | stop => exact quiet_kept (execStop_quiet h) nofun nofun rfl
  | readByte => exact quiet_kept (execReadByte_quiet h) nofun nofun rfl
  | endRead => exact quiet_kept (execEndRead_quiet h) nofun nofun rfl
  | resetTerm => exact quiet_kept (execResetTerm_quiet h) nofun nofun rfl
  | wtr r out => exact quiet_kept (execWtr_quiet h) nofun nofun rfl

theorem step_connEdge {s t : State} (hr : s.resetReq = none) (h : step s = .next t) : ConnEdge s t := by
  obtain ⟨-, rfl⟩ | ⟨i, hf, hexec⟩ := step_next hr h
  · exact .kept rfl
  · exact exec_connEdge hf hexec

/-- Unknown and BinaryMode are held in phases of an INIT only. -/
theorem init_of_connAt {q : Seq} {c : Conn} {op : BitVec 3} (hhalf : c = .unknown ∨ c = .binaryMode)
    (hconn : connAt q c = true) (hop : opAt q op = true) : q ≠ .idle ∧ op = 0 := by
  obtain rfl | rfl := hhalf <;> cases q <;> simp_all [connAt, opAt]

theorem Inv.init_of_halfOpen {s : State} (hinv : Inv s) (hhalf : s.conn = .unknown ∨ s.conn = .binaryMode) :
    s.busy = true ∧ s.op = 0 :=
  (init_of_connAt hhalf hinv.conn_legal hinv.op_legal).imp_left hinv.busy_iff_running.mpr

theorem Inv.conn_of_idle {s : State} (hinv : Inv s) (hb : s.busy = false) : s.conn = .closed ∨ s.conn = .i2cMode := by
  have hidle : s.seq = .idle := by
    by_contra hrunning
    simp [hinv.busy_iff_running.mpr hrunning] at hb
  simpa [connAt, hidle] using hinv.conn_legal

/-- Settles O13: a legal state fixes OP and CONN in each phase that moves CONN. -/
theorem connMovesOnlyAlongEdges : Obligations.ConnMovesOnlyAlongEdges := by
  intro s t hinv h
  refine ⟨?_, hinv.init_of_halfOpen, hinv.conn_of_idle⟩
  cases hr : s.resetReq with
  | some backlog =>
    rw [step_of_reset hr] at h
    cases h
    simp
  | none =>
    have hlegal := hinv.conn_legal
    have hop := hinv.op_legal
    cases step_connEdge hr h with
    | kept conn => exact .inl conn
    | opened phase answer conn =>
      rw [phase] at hlegal hop
      exact .inr (.inl ⟨eq_of_beq hlegal, conn, eq_of_beq hop, phase, answer⟩)
    | enteredBinary phase ack conn =>
      rw [phase] at hlegal hop
      exact .inr (.inr (.inl ⟨eq_of_beq hlegal, conn, eq_of_beq hop, phase, ack⟩))
    | enteredI2c phase ack conn =>
      rw [phase] at hlegal hop
      exact .inr (.inr (.inr (.inl ⟨eq_of_beq hlegal, conn, eq_of_beq hop, phase, ack⟩)))
    | aborted e phase conn =>
      rw [phase] at hlegal hop
      have hhalf : s.conn = .unknown ∨ s.conn = .binaryMode := by simpa [connAt] using hlegal
      exact .inr (.inr (.inr (.inr (.inl ⟨hhalf, conn, eq_of_beq hop, e, phase⟩))))
    | closed phase conn =>
      rw [phase] at hlegal hop
      exact .inr (.inr (.inr (.inr (.inr (.inl ⟨eq_of_beq hlegal, conn, eq_of_beq hop, phase⟩)))))

end Sys2Proof.Machine
end

section
/-!
PROOFS. An exchange as its environment meets it (40_transport_arbiter R100, R101): a frame that is one send half and one
receive half has the outcomes those halves have, whatever the frame.
-/
namespace Sys2Proof.Machine

/-- The phase a raise leads to (R213). -/
def abortPhase : ExchangeClass → Status → Seq
  | .neg => .aResetTx
  | .txn => .raised

theorem raiseError_eq (cls : ExchangeClass) (e : Status) (s : State) :
    raiseError cls e s = { s with await := 0, seq := abortPhase cls e } := by
  cases cls <;> rfl

/-! ## The send half -/

theorem sendFrame_of_short {cls : ExchangeClass} {bytes : List Byte} {k : BitVec 17} {ph : Seq} {s : State}
    {a : TxAnswer} {rest : List TxAnswer} (hheld : s.conn ≠ .closed) (hfree : s.await = 0) (hbytes : bytes ≠ [])
    (hsends : s.link.sends = a :: rest) (hshort : boundTx bytes.length a ≠ .count bytes.length) :
    sendFrame cls bytes k ph s =
      .next (raiseError cls (sendError cls) (afterTx bytes (boundTx bytes.length a) rest s)) := by
  simp [sendFrame, transmit_of_answer hheld hfree hbytes hsends, hshort]

/-- RESET_TERM's send goes on whatever its answer (R149). -/
theorem sendBestEffort_of_answer {bytes : List Byte} {after : Seq} {s : State} {a : TxAnswer} {rest : List TxAnswer}
    (hheld : s.conn ≠ .closed) (hfree : s.await = 0) (hbytes : bytes ≠ []) (hsends : s.link.sends = a :: rest) :
    sendBestEffort bytes after s =
      .next { s with seq := after, link := linkSent bytes (boundTx bytes.length a) rest s } := by
  simp [sendBestEffort, transmit_of_answer hheld hfree hbytes hsends, afterTx, record, linkSent]

section Send

variable {i : Instr} {ph rxPh : Seq} {cls : ExchangeClass} {k : BitVec 17}

theorem sendsWhole_of_sendFrame (hbytes : ∀ p, frameBytes p i ≠ [])
    (hexec : ∀ s, s.seq = ph → exec i s = sendFrame cls (frameBytes s.params i) k rxPh s) :
    SendsWhole i ph rxPh k := by
  intro s a rest hready hfull
  rw [hexec s hready.phase, sendFrame_of_full hready.held hready.free (hbytes _) hready.answer hfull]
  rfl

theorem shortSendRaises_of_sendFrame (hbytes : ∀ p, frameBytes p i ≠ [])
    (hexec : ∀ s, s.seq = ph → exec i s = sendFrame cls (frameBytes s.params i) k rxPh s) :
    ShortSendRaises i ph (sendError cls) (abortPhase cls) := by
  intro s a rest hready hshort
  rw [hexec s hready.phase, sendFrame_of_short hready.held hready.free (hbytes _) hready.answer hshort, raiseError_eq]
  rfl

end Send

/-! ## The receive half -/

theorem receive_of_ioError {n : Nat} {s : State} {arriving : List Byte} {rest : List RxAnswer}
    (hheld : s.conn ≠ .closed) (h0 : n ≠ 0) (h16 : n ≤ Config.chunkR) (howed : n ≤ s.await.toNat)
    (hrecvs : s.link.recvs = ⟨arriving, .ioError⟩ :: rest) :
    receive n s = .returned .ioError (afterRxError n .ioError (s.link.rx ++ arriving) rest s) := by
  have hpermitted : ¬(n = 0 ∨ Config.chunkR < n ∨ s.await.toNat < n) := by omega
  simp [receive, hheld, hpermitted, hrecvs]

theorem receive_of_timeout {n : Nat} {s : State} {arriving : List Byte} {rest : List RxAnswer}
    (hheld : s.conn ≠ .closed) (h0 : n ≠ 0) (h16 : n ≤ Config.chunkR) (howed : n ≤ s.await.toNat)
    (hrecvs : s.link.recvs = ⟨arriving, .timeout⟩ :: rest) (htimeout : s.params.rxTimeout ≠ none) :
    receive n s = .returned .timeout (afterRxError n .timeout (s.link.rx ++ arriving) rest s) := by
  have hpermitted : ¬(n = 0 ∨ Config.chunkR < n ∨ s.await.toNat < n) := by omega
  simp [receive, hheld, hpermitted, hrecvs, htimeout]

section Receive

variable {i : Instr} {ph : Seq} {cls : ExchangeClass} {k : Nat} {go : State → Out}

/-- An acknowledgment of full length leaves nothing owed, and what follows runs on it (R100). -/
theorem ackLeadsTo_of_receiveAck (hpos : k ≠ 0) (hle : k ≤ Config.chunkR)
    (hexec : ∀ s, s.seq = ph → exec i s = receiveAck cls k go s) : AckLeadsTo i ph k go := by
  rintro s ⟨arriving, result⟩ rest c hready rfl hcount hstream
  have hreceive := receive_of_count hready.held hpos hle hready.owed hready.answer
  rw [Nat.min_eq_right hcount] at hreceive
  have hlength : ackLengthOk k ((s.link.rx ++ arriving).take k) = true := by
    simpa [ackLengthOk] using hstream
  rw [hexec s hready.phase, receiveAck, receiveExactly, hreceive]
  simp only [hlength, if_true]
  rfl

theorem badAckRaises_of_receiveExactly (hpos : k ≠ 0) (hle : k ≤ Config.chunkR)
    (hexec : ∀ s, s.seq = ph → ∃ go, exec i s = receiveExactly cls k go s) :
    BadAckRaises i ph k (abortPhase cls) := by
  rintro s ⟨arriving, result⟩ rest hready
  obtain ⟨go, hgo⟩ := hexec s hready.phase
  refine ⟨?_, ?_, ?_⟩
  · rintro c rfl hshort
    have hlength : ackLengthOk k ((s.link.rx ++ arriving).take (min c k)) = false := by
      simp only [ackLengthOk, List.length_take, beq_eq_false_iff_ne] at hshort ⊢
      omega
    rw [hgo, receiveExactly, receive_of_count hready.held hpos hle hready.owed hready.answer]
    simp only [hlength, Bool.false_eq_true, if_false, raiseError_eq]
    rfl
  · rintro rfl
    rw [hgo, receiveExactly, receive_of_ioError hready.held hpos hle hready.owed hready.answer]
    simp only [raiseError_eq]
    rfl
  · rintro rfl htimeout
    rw [hgo, receiveExactly, receive_of_timeout hready.held hpos hle hready.owed hready.answer htimeout]
    simp only [raiseError_eq]
    rfl

end Receive

/-- In a negotiation the content decides as well: the literal leads on, anything else raises (R75). -/
theorem ackLeadsTo_of_receiveLiteral {i : Instr} {ph : Seq} {literal : List Byte} {after : State → State}
    (hpos : literal.length ≠ 0) (hle : literal.length ≤ Config.chunkR)
    (hexec : ∀ s, s.seq = ph → exec i s = receiveLiteral literal (fun u => .next (after u)) s) :
    AckLeadsTo i ph literal.length (fun u =>
      if u.abuf = literal then .next (after u) else .next { u with seq := .aResetTx .protocolMismatchError }) := by
  intro s a rest c hready hresult hcount hstream
  rw [ackLeadsTo_of_receiveAck hpos hle hexec s a rest c hready hresult hcount hstream]
  by_cases hcontent : (s.link.rx ++ a.arriving).take literal.length = literal
  · simp [ackContentOk, afterBytes, hcontent]
  · simp [ackContentOk, afterBytes, hcontent, raiseError]

end Sys2Proof.Machine
end

section
/-!
PROOFS. The mode negotiator phase by phase (41_mode_negotiator R121 to R127): INIT's and CLOSE's own phases and the two
handshakes.
-/
namespace Sys2Proof.Machine

/-! ## The control calls, answered (R91, R92, R95) -/

theorem openTransport_of_answer {p : Path} {s : State} {a : ControlAnswer} {rest : List ControlAnswer}
    (hclosed : s.conn = .closed) (hopens : s.link.opens = a :: rest) :
    openTransport p s =
      .returned a { s with link := { s.link with opens := rest, wire := s.link.wire ++ [.openPath p a] } } := by
  simp [openTransport, hclosed, hopens, record]

theorem configureLine_of_answer {s : State} {a : ControlAnswer} {rest : List ControlAnswer}
    (hheld : s.conn ≠ .closed) (hconfigs : s.link.configs = a :: rest) :
    configureLine s =
      .returned a
        { s with link := { s.link with configs := rest, wire := s.link.wire ++ [.configure Config.line a] } } := by
  simp [configureLine, hheld, hconfigs, record]

theorem releaseTransport_of_held {s : State} (hheld : s.conn ≠ .closed) :
    releaseTransport s =
      .returned ()
        { s with conn := .closed, desync := false, link := { s.link with wire := s.link.wire ++ [.release] } } := by
  simp [releaseTransport, hheld, closeConn, record]

/-! ## INIT and CLOSE -/

theorem exec_init_check {q : Operands} {s : State} (hb : s.busy = true) (hseq : s.seq = .iCheck)
    (hclosed : s.conn = .closed) : exec (.init q) s = .next { s with seq := .iOpen } := by
  simp [exec, execInit, hb, hseq, hclosed]

theorem exec_init_open_ok {q : Operands} {s : State} {rest : List ControlAnswer} (hb : s.busy = true)
    (hseq : s.seq = .iOpen) (hclosed : s.conn = .closed) (hopens : s.link.opens = .ok :: rest) :
    exec (.init q) s = .next
      { s with conn := .unknown, seq := .iConfig,
               link := { s.link with opens := rest, wire := s.link.wire ++ [.openPath q.path .ok] } } := by
  simp [exec, execInit, hb, hseq, openTransport_of_answer hclosed hopens]

theorem exec_init_configure_ok {q : Operands} {s : State} {rest : List ControlAnswer} (hb : s.busy = true)
    (hseq : s.seq = .iConfig) (hheld : s.conn ≠ .closed) (hconfigs : s.link.configs = .ok :: rest) :
    exec (.init q) s = .next
      { s with seq := .iBinTx,
               link := { s.link with configs := rest, wire := s.link.wire ++ [.configure Config.line .ok] } } := by
  simp [exec, execInit, hb, hseq, configureLine_of_answer hheld hconfigs]

/-- Settles O30, by the phase and the answer of its call. -/
theorem initOpensAndConfigures : Obligations.InitOpensAndConfigures := by
  intro q s hb
  refine ⟨?_, exec_init_check hb, fun rest => exec_init_open_ok hb, ?_,
    fun rest => exec_init_configure_ok hb, ?_⟩
  · intro hseq hheld
    simp [exec, execInit, hb, hseq, hheld]
  · intro rest hseq hclosed hopens
    simp [exec, execInit, hb, hseq, openTransport_of_answer hclosed hopens]
  · intro rest hseq hheld hconfigs
    simp [exec, execInit, hb, hseq, configureLine_of_answer hheld hconfigs, Config.line]

theorem exec_init_done {q : Operands} {s : State} (hb : s.busy = true) (hseq : s.seq = .iDone) :
    exec (.init q) s = .next (complete .ok { s with strat := q.strategy, desync := false }) := by
  simp [exec, execInit, hb, hseq]

theorem exec_init_release {q : Operands} {s : State} {e : Status} (hb : s.busy = true)
    (hseq : s.seq = .aRelease e) (hheld : s.conn ≠ .closed) :
    exec (.init q) s = .next
      { s with conn := .closed, desync := false, seq := .aDone e,
               link := { s.link with wire := s.link.wire ++ [.release] } } := by
  simp [exec, execInit, hb, hseq, releaseTransport_of_held hheld]

theorem exec_init_failed {q : Operands} {s : State} {e : Status} (hb : s.busy = true) (hseq : s.seq = .aDone e) :
    exec (.init q) s = .next (complete e s) := by
  simp [exec, execInit, hb, hseq]

/-- Settles O31: the last phases of INIT are a `complete` after its latches, a release and a `complete`. -/
theorem initEnds : Obligations.InitEnds := fun _ _ hb =>
  ⟨exec_init_done hb, fun _ => exec_init_release hb, fun _ => exec_init_failed hb⟩

/-- Settles O32, phase by phase. -/
theorem closeChecksReleasesCompletes : Obligations.CloseChecksReleasesCompletes := by
  intro q s hb
  refine ⟨?_, ?_, ?_, ?_⟩
  · intro hseq hconn
    simp [exec, execClose, hb, hseq, hconn]
  · intro hseq hconn
    simp [exec, execClose, hb, hseq, hconn]
  · intro hseq hconn
    simp [exec, execClose, hb, hseq, releaseTransport_of_held hconn]
  · intro r hseq
    simp [exec, execClose, hb, hseq, complete]

/-! ## The frames -/

theorem exec_resetTerm_abort {s : State} {e : Status} {a : TxAnswer} {rest : List TxAnswer}
    (hready : ReadyToSend (.aResetTx e) a rest s) :
    exec .resetTerm s =
      .next { s with seq := .aRelease e, link := linkSent [0x00#8, 0x0F#8] (boundTx 2 a) rest s } := by
  simp only [exec, execResetTerm, hready.phase]
  exact sendBestEffort_of_answer hready.held hready.free nofun hready.answer

theorem exec_enterBinary_send (s : State) (hseq : s.seq = .iBinTx) :
    exec .enterBinary s = sendFrame .neg (frameBytes s.params .enterBinary) 5 .iBinRx s := by
  simp [exec, execEnterBinary, hseq]

theorem exec_enterBinary_receive (s : State) (hseq : s.seq = .iBinRx) :
    exec .enterBinary s =
      receiveLiteral binaryAck (fun u => .next { u with conn := .binaryMode, seq := .iI2cTx }) s := by
  simp [exec, execEnterBinary, hseq]

theorem exec_enterI2c_send (s : State) (hseq : s.seq = .iI2cTx) :
    exec .enterI2c s = sendFrame .neg (frameBytes s.params .enterI2c) 6 .iI2cRx s := by
  simp [exec, execEnterI2c, hseq]

theorem exec_enterI2c_receive (s : State) (hseq : s.seq = .iI2cRx) :
    exec .enterI2c s = receiveLiteral i2cAck (fun u => .next { u with conn := .i2cMode, seq := .iDone }) s := by
  simp [exec, execEnterI2c, hseq]

/-- Settles O37: ENTER_BINARY is one exchange of the negotiation class with the literal `"BBIO1"`. -/
theorem binaryHandshake : Obligations.BinaryHandshake :=
  ⟨fun _ => rfl,
    sendsWhole_of_sendFrame (fun _ => frameBytes_ne_nil rfl rfl) exec_enterBinary_send,
    shortSendRaises_of_sendFrame (fun _ => frameBytes_ne_nil rfl rfl) exec_enterBinary_send,
    ackLeadsTo_of_receiveLiteral (by decide) (by decide) exec_enterBinary_receive,
    badAckRaises_of_receiveExactly (by decide) (by decide) fun s hseq => ⟨_, exec_enterBinary_receive s hseq⟩⟩

/-- Settles O38: ENTER_I2C is one exchange of the negotiation class with the literal `"I2C1" 01 01`. -/
theorem i2cHandshake : Obligations.I2cHandshake :=
  ⟨fun _ => rfl,
    sendsWhole_of_sendFrame (fun _ => frameBytes_ne_nil rfl rfl) exec_enterI2c_send,
    shortSendRaises_of_sendFrame (fun _ => frameBytes_ne_nil rfl rfl) exec_enterI2c_send,
    ackLeadsTo_of_receiveLiteral (by decide) (by decide) exec_enterI2c_receive,
    badAckRaises_of_receiveExactly (by decide) (by decide) fun s hseq => ⟨_, exec_enterI2c_receive s hseq⟩⟩

end Sys2Proof.Machine
end

section
/-!
PROOFS. Whole negotiations (41_mode_negotiator R124, R125): a run taken apart into its steps, one validated exchange as
two of them, and the statements about INIT.
-/
namespace Sys2Proof.Machine

/-! ## Runs, step by step -/

theorem run_of_step {n : Nat} {s t : State} {o : Out} (hstep : step s = .next t)
    (hrun : Host.Core.run Sys2Proof.core n t = o) : Host.Core.run Sys2Proof.core (n + 1) s = o := by
  simp only [Host.Core.run, Sys2Proof.core, hstep]
  exact hrun

/-- A step of an operation in flight runs the instruction SEQ calls for. -/
theorem run_of_exec {n : Nat} {s t : State} {i : Instr} {o : Out} (hr : s.resetReq = none) (hb : s.busy = true)
    (hdue : phaseInstr s = some i) (hexec : exec i s = .next t) (hrun : Host.Core.run Sys2Proof.core n t = o) :
    Host.Core.run Sys2Proof.core (n + 1) s = o :=
  run_of_step (by rw [step_of_fetch hr (by rw [fetch_of_busy hb, hdue]), hexec]) hrun

/-- The first step of a request on an idle block executes it (R103). -/
theorem run_of_request {n : Nat} {s t : State} {r : Request} {o : Out} (hready : ReadyFor r s)
    (hexec : exec (decodeRequest r) s = .next t) (hrun : Host.Core.run Sys2Proof.core n t = o) :
    Host.Core.run Sys2Proof.core (n + 1) s = o := by
  have hf : fetch s = some (decodeRequest r) := by rw [fetch_of_idle hready.idle, hready.port]; rfl
  exact run_of_step (by rw [step_of_fetch hready.noReset hf, hexec]) hrun

/-! ## A validated exchange -/

/-- The state after an exchange whose `TX` went out whole and whose `RX` returned the acknowledgment `ack`, still in
receive phase `ph`: one answer of each kind is used up, the stream is empty and nothing is owed (R100). -/
def afterExchange (ph : Seq) (frame ack : List Byte) (s : State) : State :=
  { s with
    seq := ph, abuf := ack, await := 0,
    link := { s.link with
      sends := s.link.sends.tail, recvs := s.link.recvs.tail, rx := [],
      wire := s.link.wire ++ exchangeCalls frame ack } }

theorem AnswersWell.after {f ack : List Byte} {frames acks : List (List Byte)} {moreS : List TxAnswer}
    {moreR : List RxAnswer} {s : State} (ph : Seq)
    (h : AnswersWell (f :: frames) (ack :: acks) moreS moreR s.link) :
    AnswersWell frames acks moreS moreR (afterExchange ph f ack s).link :=
  ⟨by simp [afterExchange, h.sends], by simp [afterExchange, h.recvs], rfl⟩

/-- Frame `i` is the frame in flight, about to be sent, and stays so in its receive phase (R16, R97). -/
structure ExchangeDue (i : Instr) (txPh rxPh : Seq) (s : State) : Prop where
  noReset : s.resetReq = none
  running : s.busy = true
  phase   : s.seq = txPh
  held    : s.conn ≠ .closed
  free    : s.await = 0
  send    : phaseInstr s = some i
  receive : ∀ aw l, phaseInstr { s with await := aw, seq := rxPh, link := l } = some i

/-- Two steps make an exchange that is answered well; `go` is what follows its acknowledgment. -/
theorem run_of_exchange {n k : Nat} {i : Instr} {txPh rxPh : Seq} {go : State → Out} {s t : State} {o : Out}
    {ack : List Byte} {frames acks : List (List Byte)} {moreS : List TxAnswer} {moreR : List RxAnswer}
    (hsend : SendsWhole i txPh rxPh (BitVec.ofNat 17 k)) (hack : AckLeadsTo i rxPh k go) (hk : ack.length = k)
    (hbound : k ≤ Config.chunkR) (hdue : ExchangeDue i txPh rxPh s)
    (hwell : AnswersWell (frameBytes s.params i :: frames) (ack :: acks) moreS moreR s.link)
    (hgo : go (afterExchange rxPh (frameBytes s.params i) ack s) = .next t)
    (hrun : Host.Core.run Sys2Proof.core n t = o) : Host.Core.run Sys2Proof.core (n + 2) s = o := by
  obtain ⟨hsends, hrecvs, hempty⟩ := hwell
  have hsent := hsend s _ _ ⟨hdue.phase, hdue.held, hdue.free, hsends⟩ (by simp [boundTx])
  refine run_of_exec hdue.noReset hdue.running hdue.send hsent ?_
  refine run_of_exec hdue.noReset hdue.running (hdue.receive _ _) ?_ hrun
  refine Eq.trans (hack _ _ _ ack.length ⟨rfl, hdue.held, ?_, hrecvs⟩ rfl hk.ge (by simp [hk])) ?_
  · have hfit : k < 2 ^ 17 := hbound.trans_lt (by decide)
    simpa using (Nat.mod_eq_of_lt hfit).ge
  · rw [← hgo]
    simp [afterBytes, afterExchange, linkReceived, linkSent, hempty, hsends, hrecvs, ← hk, exchangeCalls]

/-! ## INIT -/

/-- The state of an accepted INIT whose transport is open and whose line is configured (R124). -/
def initConfigured (q : Operands) (s : State) : State :=
  { s with
    op := 0, args := q, busy := true, port := none, conn := .unknown, seq := .iBinTx,
    link := { s.link with
      opens := s.link.opens.tail, configs := s.link.configs.tail,
      wire := s.link.wire ++ [.openPath q.path .ok, .configure Config.line .ok] } }

theorem run_of_initConfigured {n : Nat} {q : Operands} {s : State} {moreO moreC : List ControlAnswer} {o : Out}
    (hready : ReadyFor { op := 0, args := q } s) (hclosed : s.conn = .closed) (hopens : s.link.opens = .ok :: moreO)
    (hconfigs : s.link.configs = .ok :: moreC) (hrun : Host.Core.run Sys2Proof.core n (initConfigured q s) = o) :
    Host.Core.run Sys2Proof.core (n + 4) s = o := by
  obtain ⟨haccept, -⟩ := acceptanceLatchesTheRequest q s hready.idle
  refine run_of_request hready haccept ?_
  refine run_of_exec hready.noReset rfl rfl (exec_init_check rfl rfl hclosed) ?_
  refine run_of_exec hready.noReset rfl rfl (exec_init_open_ok rfl rfl hclosed hopens) ?_
  refine run_of_exec hready.noReset rfl rfl (exec_init_configure_ok rfl rfl nofun hconfigs) ?_
  simpa [initConfigured, hopens, hconfigs] using hrun

/-- Settles O54: four steps up to the first frame, two for each handshake, whose content check passes, and the
completion. -/
theorem initRuns : Obligations.InitRuns := by
  intro q s moreO moreC moreS moreR hready hclosed hopens hconfigs hwell
  obtain ⟨hbinBytes, hbinSend, -, hbinAck, -⟩ := binaryHandshake
  obtain ⟨hi2cBytes, hi2cSend, -, hi2cAck, -⟩ := i2cHandshake
  have hopenWell : AnswersWell _ _ moreS moreR (initConfigured q s).link := ⟨hwell.sends, hwell.recvs, hwell.rx⟩
  refine ⟨_, run_of_initConfigured hready hclosed hopens hconfigs <|
    run_of_exchange hbinSend hbinAck rfl (by decide)
      ⟨hready.noReset, rfl, rfl, nofun, hready.settled, rfl, fun _ _ => rfl⟩ hopenWell (if_pos rfl) <|
    run_of_exchange hi2cSend hi2cAck rfl (by decide)
      ⟨hready.noReset, rfl, rfl, nofun, rfl, rfl, fun _ _ => rfl⟩ (hopenWell.after .iBinRx) (if_pos rfl) <|
    run_of_exec hready.noReset rfl rfl (exec_init_done rfl rfl) rfl, ?_⟩
  simp [initConfigured, afterExchange, hbinBytes, hi2cBytes, Config.line]

/-- Settles O55: the three steps of the abort sequence. -/
theorem failedNegotiationCloses : Obligations.FailedNegotiationCloses := by
  intro s e a rest hr hb hready
  have hdue : phaseInstr s = some .resetTerm := by simp [phaseInstr, hready.phase]
  refine run_of_exec hr hb hdue (exec_resetTerm_abort hready) ?_
  refine run_of_exec hr hb rfl (exec_init_release hb rfl hready.held) ?_
  refine run_of_exec hr hb rfl (exec_init_failed hb rfl) ?_
  simp [Host.Core.run, complete, linkSent, hready.free]

end Sys2Proof.Machine
end

section
/-!
PROOFS. The frames of the PerByte strategy and RESET_TERM (42_frame_codec R141 to R149), each as the exchange its two
phases make.
-/
namespace Sys2Proof.Machine

/-! ## A frame of a WRITE or READ as one exchange (R100, R101) -/

theorem exchange_of_halves {i : Instr} {txPh rxPh : Seq} {k : Nat} {after : State → State}
    (hbytes : ∀ p, frameBytes p i ≠ []) (hpos : k ≠ 0) (hle : k ≤ Config.chunkR)
    (hsend : ∀ s, s.seq = txPh → exec i s = sendFrame .txn (frameBytes s.params i) (BitVec.ofNat 17 k) rxPh s)
    (hreceive : ∀ s, s.seq = rxPh → exec i s = receiveAck .txn k (fun u => .next (after u)) s) :
    Exchange i txPh rxPh k after :=
  ⟨sendsWhole_of_sendFrame hbytes hsend, shortSendRaises_of_sendFrame hbytes hsend,
    ackLeadsTo_of_receiveAck hpos hle hreceive,
    badAckRaises_of_receiveExactly hpos hle fun s hseq => ⟨_, hreceive s hseq⟩⟩

/-! ## RESET_TERM (R149) -/

theorem exec_resetTerm_close {s : State} {a : TxAnswer} {rest : List TxAnswer}
    (hready : ReadyToSend .cResetTx a rest s) :
    exec .resetTerm s = .next { s with seq := .cRelease, link := linkSent [0x00#8, 0x0F#8] (boundTx 2 a) rest s } := by
  simp only [exec, execResetTerm, hready.phase]
  exact sendBestEffort_of_answer hready.held hready.free nofun hready.answer

/-- Settles O39: each of its two phases is one best-effort send. -/
theorem resetTermIsBestEffort : Obligations.ResetTermIsBestEffort :=
  ⟨fun _ => rfl, fun _ _ _ => exec_resetTerm_close, fun _ _ _ _ => exec_resetTerm_abort⟩

/-! ## The loop heads of WRITE and READ (R171, R173) -/

theorem nextChunk_eq (s : State) :
    nextChunk s =
      if s.cursor.toNat < s.args.len.toNat then
        { s with chunkN := BitVec.ofNat 5 (min 15 (s.args.len.toNat - s.cursor.toNat)), seq := .wHdrTx }
      else { s with seq := .wStopTx } := by
  simp [nextChunk, moreBytes, writeChunk, Config.chunkW]

/-- At the start of the data phase everything up to LEN is still to be sent. -/
theorem nextChunk_start (s : State) :
    nextChunk { s with cursor := 0 } =
      if s.args.len = 0 then { s with cursor := 0, seq := .wStopTx }
      else { s with cursor := 0, chunkN := BitVec.ofNat 5 (min 15 s.args.len.toNat), seq := .wHdrTx } := by
  rw [nextChunk_eq]
  by_cases hlen : s.args.len = 0
  · simp [hlen]
  · have hpos : 0 < s.args.len.toNat := Nat.pos_of_ne_zero fun h => hlen (BitVec.eq_of_toNat_eq h)
    rw [if_neg hlen]
    exact if_pos hpos

/-! ## ADDR_SELECT (R141) -/

section AddrSelect

variable (dev : BitVec 7) (dir : Direction) (reg : Byte) (s : State)

theorem exec_addrSelect_writeSend (hseq : s.seq = .wAddrTx) :
    exec (.addrSelect dev dir reg) s =
      sendFrame .txn (frameBytes s.params (.addrSelect dev dir reg)) 4 .wAddrRx s := by
  simp [exec, execAddrSelect, hseq]

theorem exec_addrSelect_writeReceive (hseq : s.seq = .wAddrRx) :
    exec (.addrSelect dev dir reg) s = receiveAck .txn 4 (fun u => .next (nextChunk { u with cursor := 0 })) s := by
  simp [exec, execAddrSelect, hseq]

theorem exec_addrSelect_readSend (hseq : s.seq = .rAddrTx) :
    exec (.addrSelect dev dir reg) s =
      sendFrame .txn (frameBytes s.params (.addrSelect dev dir reg)) 4 .rAddrRx s := by
  simp [exec, execAddrSelect, hseq]

theorem exec_addrSelect_readReceive (hseq : s.seq = .rAddrRx) :
    exec (.addrSelect dev dir reg) s = receiveAck .txn 4 (fun u => .next { u with seq := .rReselTx }) s := by
  simp [exec, execAddrSelect, hseq]

end AddrSelect

/-- Settles O40: one exchange in a WRITE, whose acknowledgment leads to the loop head with CURSOR 0, and one in a
READ. -/
theorem addrSelectExchange : Obligations.AddrSelectExchange := by
  intro dev reg
  refine ⟨fun p => by simp [frameBytes, startMarker, addressByte, directionBit], ?_, ?_⟩
  · simp only [← nextChunk_start]
    exact exchange_of_halves (fun _ => frameBytes_ne_nil rfl rfl) (by decide) (by decide)
      (exec_addrSelect_writeSend dev .write reg) (exec_addrSelect_writeReceive dev .write reg)
  · exact exchange_of_halves (fun _ => frameBytes_ne_nil rfl rfl) (by decide) (by decide)
      (exec_addrSelect_readSend dev .write reg) (exec_addrSelect_readReceive dev .write reg)

/-! ## BULK_HDR and BULK_PAYLOAD (R143, R144) -/

theorem exec_bulkHdr_send (n : BitVec 4) (s : State) (hseq : s.seq = .wHdrTx) :
    exec (.bulkHdr n) s = sendFrame .txn (frameBytes s.params (.bulkHdr n)) 1 .wHdrRx s := by
  simp [exec, execBulkHdr, hseq]

theorem exec_bulkHdr_receive (n : BitVec 4) (s : State) (hseq : s.seq = .wHdrRx) :
    exec (.bulkHdr n) s = receiveAck .txn 1 (fun u => .next { u with seq := .wPayTx }) s := by
  simp [exec, execBulkHdr, hseq]

/-- Settles O42: one exchange, for the operand 0 as well. -/
theorem bulkHeaderExchange : Obligations.BulkHeaderExchange := fun n =>
  ⟨fun _ => rfl,
    exchange_of_halves (fun _ => nofun) (by decide) (by decide) (exec_bulkHdr_send n) (exec_bulkHdr_receive n)⟩

/-- The send of a payload that stays below LEN (R42). -/
theorem exec_bulkPayload_send {data : List Byte} {s : State} (hseq : s.seq = .wPayTx)
    (hroom : s.cursor.toNat + data.length ≤ s.args.len.toNat) :
    exec (.bulkPayload data) s = sendFrame .txn data (BitVec.ofNat 17 data.length) .wPayRx s := by
  simp [exec, execBulkPayload, hseq, hroom, frameBytes]

theorem exec_bulkPayload_receive (data : List Byte) (s : State) (hseq : s.seq = .wPayRx) :
    exec (.bulkPayload data) s =
      receiveAck .txn data.length
        (fun u => .next (nextChunk { u with cursor := u.cursor + BitVec.ofNat 16 data.length })) s := by
  simp [exec, execBulkPayload, hseq]

/-- Settles O43: below LEN the send is one send half, and the acknowledgment leads to the loop head past the chunk. -/
theorem bulkPayloadExchange : Obligations.BulkPayloadExchange := by
  intro data hpos hle
  have hne : data ≠ [] := List.length_pos_iff.mp hpos
  have hk : data.length ≠ 0 := by omega
  have hfit : data.length ≤ Config.chunkR := hle.trans (by decide)
  refine ⟨fun s a rest hready hroom => ?_, ?_,
    badAckRaises_of_receiveExactly hk hfit fun s hseq => ⟨_, exec_bulkPayload_receive data s hseq⟩⟩
  · rw [exec_bulkPayload_send hready.phase hroom]
    exact ⟨sendFrame_of_full hready.held hready.free hne hready.answer,
      sendFrame_of_short hready.held hready.free hne hready.answer⟩
  · intro s a rest c hready hresult hcount hstream
    rw [ackLeadsTo_of_receiveAck hk hfit (exec_bulkPayload_receive data) s a rest c hready hresult hcount hstream]
    simp only [nextChunk_eq]
    exact apply_ite Host.Outcome.next _ _ _

/-! ## STOP and END_READ (R146, R148) -/

theorem exec_stop_send (s : State) (hseq : s.seq = .wStopTx) :
    exec .stop s = sendFrame .txn (frameBytes s.params .stop) 1 .wStopRx s := by
  simp [exec, execStop, hseq]

theorem exec_stop_receive (s : State) (hseq : s.seq = .wStopRx) :
    exec .stop s = receiveAck .txn 1 (fun u => .next { u with seq := .wDone .ok }) s := by
  simp [exec, execStop, hseq]

/-- Settles O44: one exchange. -/
theorem stopExchange : Obligations.StopExchange :=
  ⟨fun _ => rfl,
    exchange_of_halves (fun _ => frameBytes_ne_nil rfl rfl) (by decide) (by decide) exec_stop_send exec_stop_receive⟩

theorem exec_endRead_send (s : State) (hseq : s.seq = .rEndTx) :
    exec .endRead s = sendFrame .txn (frameBytes s.params .endRead) 3 .rEndRx s := by
  simp [exec, execEndRead, hseq]

theorem exec_endRead_receive (s : State) (hseq : s.seq = .rEndRx) :
    exec .endRead s = receiveAck .txn 3 (fun u => .next { u with seq := .rDone .ok }) s := by
  simp [exec, execEndRead, hseq]

/-- Settles O46: one exchange, which goes on with every acknowledgment of three bytes. -/
theorem endReadExchange : Obligations.EndReadExchange :=
  ⟨fun _ => rfl,
    exchange_of_halves (fun _ => frameBytes_ne_nil rfl rfl) (by decide) (by decide) exec_endRead_send
      exec_endRead_receive⟩

/-! ## READ_BYTE (R147) -/

theorem exec_readByte_send (s : State) (hseq : s.seq = .rByteTx) :
    exec .readByte s = sendFrame .txn (frameBytes s.params .readByte) 1 .rByteRx s := by
  simp [exec, execReadByte, hseq]

theorem exec_readByte_receive (s : State) (hseq : s.seq = .rByteRx) :
    exec .readByte s = receiveAck .txn 1 storeByte s := by
  simp [exec, execReadByte, hseq]

/-- Below LEN the byte goes to CURSOR, and CURSOR advances without wrapping (R42, R173). -/
theorem storeByte_of_room {s : State} (hroom : s.cursor.toNat < s.args.len.toNat) :
    storeByte s = .next
      { s with rbuf := s.rbuf.write s.cursor.toNat (s.abuf.headD 0), cursor := s.cursor + 1,
               seq := if s.cursor.toNat + 1 < s.args.len.toNat then .rByteTx else .rEndTx } := by
  have hcursor : (s.cursor + 1).toNat = s.cursor.toNat + 1 := advance_toNat hroom
  simp only [storeByte, nextByte, moreBytes, hroom, hcursor, decide_true, if_true, decide_eq_true_eq]

/-- Settles O45: one exchange, whose acknowledgment byte is stored below LEN. -/
theorem readByteExchange : Obligations.ReadByteExchange := by
  refine ⟨fun _ => rfl,
    sendsWhole_of_sendFrame (fun _ => frameBytes_ne_nil rfl rfl) exec_readByte_send,
    shortSendRaises_of_sendFrame (fun _ => frameBytes_ne_nil rfl rfl) exec_readByte_send,
    badAckRaises_of_receiveExactly (by decide) (by decide) fun s hseq => ⟨_, exec_readByte_receive s hseq⟩, ?_⟩
  intro s a rest c b left hready hresult hcount hstream hroom
  refine ⟨?_, stored_write _ _ b⟩
  have hack := ackLeadsTo_of_receiveAck (by decide) (by decide) exec_readByte_receive s a rest c hready hresult hcount
    (by simp [hstream])
  have hbyte : afterBytes 1 1 a rest s =
      { s with abuf := [b], await := 0, link := linkReceived 1 (.bytes [b]) left rest s } := by
    simp [afterBytes, hstream]
  rw [hack, hbyte]
  exact storeByte_of_room hroom

end Sys2Proof.Machine
end

section
/-!
PROOFS. The frame of the Combined strategy, WTR, phase by phase (42_frame_codec R151; 43_bridge_ops R181).
-/
namespace Sys2Proof.Machine

/-- An `RX(n)` that returns the bytes `d` from the head of the stream (R43, R94). -/
theorem receive_of_stream {n c : Nat} {s : State} {ph : Seq} {a : RxAnswer} {rest : List RxAnswer} {d left : List Byte}
    (hready : ReadyToReceive ph n a rest s) (hpos : n ≠ 0) (hle : n ≤ Config.chunkR) (hresult : a.result = .count c)
    (hstream : s.link.rx ++ a.arriving = d ++ left) (hlength : d.length = min (min c n) (d ++ left).length) :
    receive n s = .returned (.bytes d)
      { s with abuf := d, await := s.await - BitVec.ofNat 17 d.length,
               link := linkReceived n (.bytes d) left rest s } := by
  obtain ⟨arriving, result⟩ := a
  obtain rfl : result = .count c := hresult
  have htake : (d ++ left).take (min c n) = d := by
    rw [List.take_eq_take_min, ← hlength, List.take_left]
  have hdrop : (d ++ left).drop (min c n) = left := by
    have hsplit := List.take_append_drop (min c n) (d ++ left)
    rw [htake] at hsplit
    exact List.append_cancel_left hsplit
  rw [receive_of_count hready.held hpos hle hready.owed hready.answer]
  simp only [hstream, htake, hdrop]
  rfl

/-! ## The send and the status byte (R73, R151) -/

section Wtr

variable (r : Half) (out : List Byte) (last : Bool) (s : State)

theorem exec_wtr_send (hseq : s.seq = .xCmdTx last) :
    exec (.wtr r out) s =
      sendFrame .txn (frameBytes s.params (.wtr r out)) (BitVec.ofNat 17 (1 + r.toNat)) (.xStatRx last) s := by
  have howed : 1 + r.setWidth 17 = BitVec.ofNat 17 (1 + r.toNat) := by
    apply BitVec.eq_of_toNat_eq
    simp
  simp only [exec, execWtr, hseq, howed]

theorem exec_wtr_status (hseq : s.seq = .xStatRx last) :
    exec (.wtr r out) s = receiveExactly .txn 1 (checkStatus last r) s := by
  simp [exec, execWtr, hseq]

theorem exec_wtr_input (hseq : s.seq = .xDataRx last) : exec (.wtr r out) s = receiveInput last s := by
  simp [exec, execWtr, hseq]

end Wtr

theorem nextInput_eq (last : Bool) (s : State) :
    nextInput last s =
      if s.remain = 0 then { s with seq := if last then .xDone .ok else .xCmdTx true }
      else { s with chunkN := BitVec.ofNat 5 (min 16 s.remain.toNat), seq := .xDataRx last } := rfl

/-- The command byte, then the two lengths as numbers, high byte first, then the payload. -/
theorem frameBytes_wtr (p : Params) (r : Half) (out : List Byte) :
    ∃ wh wl rh rl : Byte, frameBytes p (.wtr r out) = [p.wtrCmd, wh, wl, rh, rl] ++ out ∧
      (out.length < 65536 → out.length = 256 * wh.toNat + wl.toNat) ∧ r.toNat = 256 * rh.toNat + rl.toNat := by
  obtain ⟨-, hlength⟩ := lengthFieldsAreExact
  obtain ⟨wh, wl, hwbytes, hw, -⟩ := hlength (BitVec.ofNat 16 out.length)
  obtain ⟨rh, rl, hrbytes, hr, -⟩ := hlength r
  refine ⟨wh, wl, rh, rl, by simp [frameBytes, hwbytes, hrbytes], fun hfit => ?_, hr⟩
  rwa [BitVec.toNat_ofNat, Nat.mod_eq_of_lt hfit] at hw

/-- Settles O47: the send is one send half; the status byte is received and checked, and `nextInput` tells the rest. -/
theorem wtrSendsAndChecksStatus : Obligations.WtrSendsAndChecksStatus := by
  intro r out last
  have hbytes : ∀ p, frameBytes p (.wtr r out) ≠ [] := fun _ => nofun
  refine ⟨fun p => frameBytes_wtr p r out,
    sendsWhole_of_sendFrame hbytes (exec_wtr_send r out last),
    shortSendRaises_of_sendFrame hbytes (exec_wtr_send r out last),
    badAckRaises_of_receiveExactly (by decide) (by decide) fun s hseq => ⟨_, exec_wtr_status r out last s hseq⟩, ?_⟩
  intro s a rest c b left hready hresult hcount hstream
  have hreceive := receive_of_stream (d := [b]) hready (by decide) (by decide) hresult hstream (by simp; omega)
  have hcheck : exec (.wtr r out) s = checkStatus last r
      { s with abuf := [b], await := s.await - 1, link := linkReceived 1 (.bytes [b]) left rest s } := by
    rw [exec_wtr_status r out last s hready.phase, receiveExactly, hreceive]
    rfl
  have hstatus : ackStatusOk [b] = true ↔ b ≠ 0 := by simp [ackStatusOk]
  rw [hcheck, checkStatus, nextInput_eq]
  refine ⟨fun hzero => if_neg (mt hstatus.mp (not_not.mpr hzero)), fun hok hnone => ?_, fun hok hsome => ?_⟩
  · rw [if_pos (hstatus.mpr hok), if_pos hnone, hnone]
  · rw [if_pos (hstatus.mpr hok), if_neg hsome]

/-! ## The input phase (R151, R181) -/

theorem storeInput_of_room {last : Bool} {d : List Byte} {s : State}
    (hroom : s.cursor.toNat + d.length ≤ s.args.len.toNat) :
    storeInput last d s = .next (nextInput last
      { s with rbuf := s.rbuf.writeAll s.cursor.toNat d, cursor := s.cursor + BitVec.ofNat 16 d.length,
               remain := s.remain - BitVec.ofNat 16 d.length }) := by
  simp [storeInput, hroom]

/-- What is left to receive, as a number (R151). -/
theorem remain_sub_ofNat {remain : Half} {n : Nat} (hle : n ≤ remain.toNat) :
    remain - BitVec.ofNat 16 n = BitVec.ofNat 16 (remain.toNat - n) := by
  apply BitVec.eq_of_toNat_eq
  have hlt := remain.isLt
  rw [BitVec.toNat_sub, BitVec.toNat_ofNat, BitVec.toNat_ofNat]
  omega

/-- Settles O48, by the return of the receive. -/
theorem wtrInputMakesProgress : Obligations.WtrInputMakesProgress := by
  intro r out last s a rest hready hpos hle
  have hnonzero : s.chunkN.toNat ≠ 0 := by omega
  rw [exec_wtr_input r out last s hready.phase, receiveInput]
  refine ⟨?_, ?_, ?_, ?_⟩
  · intro c d left hresult hlength hne hstream hroom hremain
    refine ⟨?_, stored_writeAll _ _ d⟩
    rw [receive_of_stream hready hnonzero hle hresult hstream (by simp; omega)]
    simp only [hne, if_false]
    rw [storeInput_of_room, remain_sub_ofNat hremain, nextInput_eq]
    exact hroom
  · intro c hresult hnone
    have hempty := receive_of_stream (d := []) hready hnonzero hle hresult (List.nil_append _).symm
      (by simp only [List.length_nil, List.nil_append]; omega)
    rw [hempty]
    simp [raiseError, afterBytes]
  · intro hresult
    obtain ⟨arriving, result⟩ := a
    obtain rfl : result = .ioError := hresult
    rw [receive_of_ioError hready.held hnonzero hle hready.owed hready.answer]
    rfl
  · intro hresult htimeout
    obtain ⟨arriving, result⟩ := a
    obtain rfl : result = .timeout := hresult
    rw [receive_of_timeout hready.held hnonzero hle hready.owed hready.answer htimeout]
    rfl

end Sys2Proof.Machine
end

section
/-!
PROOFS. What the two frames that store input leave alone, READ_BYTE and WTR (42_frame_codec R147, R151; 20_memory R42).
-/
namespace Sys2Proof.Machine

/-! ## The two ways a frame treats RBUF -/

/-- With the answers of the control calls unused and no reset taken, a quiet step keeps what no frame touches. -/
theorem Quiet.frameKeeps {s t : State} (hquiet : Quiet s t) (hreset : t.resetReq = s.resetReq)
    (hopens : t.link.opens = s.link.opens) (hconfigs : t.link.configs = s.link.configs) : FrameKeeps s t :=
  ⟨hquiet.params, hquiet.strat, hquiet.status, hquiet.busy, hquiet.desync, hquiet.op, hquiet.args, hquiet.port, hreset,
    fun _ => by rw [hquiet.wbuf], hopens, hconfigs⟩

/-- A phase of a frame that stores nothing. -/
structure StoresNothing (s t : State) : Prop where
  frame  : FrameKeeps s t
  conn   : t.conn = s.conn := by simp
  cursor : t.cursor = s.cursor := by simp
  rbuf   : t.rbuf = s.rbuf := by simp

/-- A phase of a frame that stores nothing and keeps the input counters as well. -/
structure MovesNoCounter (s t : State) : Prop extends StoresNothing s t where
  remain : t.remain = s.remain := by simp
  chunkN : t.chunkN = s.chunkN := by simp

/-- A phase of a frame that stores the bytes it received, then in ABUF, at CURSOR upward (R42). -/
structure StoresAck (s t : State) : Prop where
  frame    : FrameKeeps s t
  conn     : t.conn = s.conn := by simp
  input    : StoresInput s t t.abuf
  nonempty : t.abuf ≠ []

theorem StoresAck.read_outside {s t : State} (h : StoresAck s t) {i : Nat}
    (hi : i < s.cursor.toNat ∨ s.cursor.toNat + t.abuf.length ≤ i) : t.rbuf.read i = s.rbuf.read i := by
  rw [h.input.rbuf]
  exact Memory.read_writeAll_other _ _ _ _ hi

/-- A store below LEN always moves CURSOR. -/
theorem StoresAck.cursor_ne {s t : State} (h : StoresAck s t) : t.cursor ≠ s.cursor := by
  intro hsame
  have hmoved := h.input.cursor
  have hpos := List.length_pos_iff.mpr h.nonempty
  rw [hsame] at hmoved
  omega

/-! ## The halves of an exchange -/

theorem sendFrame_movesNoCounter {cls : ExchangeClass} {bytes : List Byte} {k : BitVec 17} {ph : Seq} {s t : State}
    (h : sendFrame cls bytes k ph s = .next t) : MovesNoCounter s t := by
  have hquiet := sendFrame_quiet h
  obtain rfl | ⟨r, l, hsent, hcase⟩ := sendFrame_shape h
  · exact { frame := hquiet.frameKeeps rfl rfl rfl }
  · obtain ⟨-, hopens, hconfigs, -, -⟩ := hsent.keeps
    obtain ⟨-, rfl⟩ | ⟨-, rfl⟩ := hcase
    · exact { frame := hquiet.frameKeeps rfl hopens hconfigs }
    · exact { frame := hquiet.frameKeeps (by simp) (by simpa using hopens) (by simpa using hconfigs) }

theorem RaisedBy.movesNoCounter {cls : ExchangeClass} {n : Nat} {e : Status} {s t : State} (h : RaisedBy cls n e s t) :
    MovesNoCounter s t := by
  have hquiet := h.quiet
  obtain ⟨r, ab, aw, l, e', hrecv, -, rfl⟩ := h
  obtain ⟨-, hopens, hconfigs, -⟩ := hrecv.keeps
  exact { frame := hquiet.frameKeeps (by simp) (by simpa using hopens) (by simpa using hconfigs) }

/-! ## READ_BYTE -/

/-- READ_BYTE stores nothing, or stores its one acknowledgment byte. -/
theorem execReadByte_stores {s t : State} (h : execReadByte s = .next t) :
    MovesNoCounter s t ∨
      (s.seq = .rByteRx ∧ StoresAck s t ∧ t.abuf.length = 1 ∧ t.remain = s.remain ∧ t.chunkN = s.chunkN) := by
  have hquiet := execReadByte_quiet h
  unfold execReadByte at h
  split at h
  · exact .inl (sendFrame_movesNoCounter h)
  · rename_i hseq
    obtain rfl | hraise | ⟨a, aw, l, hrecv, hlength, hstore⟩ := receiveAck_shape h
    · exact .inl { frame := hquiet.frameKeeps rfl rfl rfl }
    · exact .inl hraise.movesNoCounter
    · obtain ⟨b, rfl⟩ := List.length_eq_one_iff.mp hlength
      obtain ⟨-, hopens, hconfigs, -⟩ := hrecv.keeps
      unfold storeByte at hstore
      split at hstore
      · rename_i hmore
        cases hstore
        have hroom : s.cursor.toNat + 1 ≤ s.args.len.toNat := by simpa [moreBytes] using hmore
        have hcursor : (s.cursor + 1).toNat = s.cursor.toNat + 1 := advance_toNat hroom
        exact .inr ⟨hseq,
          { frame := hquiet.frameKeeps rfl hopens hconfigs, nonempty := nofun,
            input := ⟨.inl hseq, rfl, hcursor, hcursor.trans_le hroom⟩ }, rfl, rfl, rfl⟩
      · cases hstore
  · cases h

/-- Settles O50: the one byte of a store lies at CURSOR, and the store moves CURSOR. -/
theorem readByteFrame : Obligations.ReadByteFrame := by
  intro s t h
  obtain hkept | ⟨hseq, hstore, hlength, hremain, hchunk⟩ := execReadByte_stores h
  · simp [hkept.frame, hkept.conn, hkept.remain, hkept.chunkN, hkept.cursor, hkept.rbuf]
  · refine ⟨hstore.frame, hstore.conn, hremain, hchunk, fun i hi => hstore.read_outside (by omega), ?_, ?_⟩
    · exact fun hne => absurd hseq hne
    · exact fun hsame => absurd hsame hstore.cursor_ne

/-! ## WTR -/

/-- WTR stores nothing, or in its input phase stores what it received. -/
theorem execWtr_stores {r : Half} {out : List Byte} {s t : State} (h : execWtr r out s = .next t) :
    StoresNothing s t ∨ ((∃ last, s.seq = .xDataRx last) ∧ StoresAck s t) := by
  have hquiet := execWtr_quiet h
  unfold execWtr at h
  split at h
  · exact .inl (sendFrame_movesNoCounter h).toStoresNothing
  · obtain rfl | hraise | ⟨a, aw, l, hrecv, -, hstatus⟩ := receiveExactly_shape h
    · exact .inl { frame := hquiet.frameKeeps rfl rfl rfl }
    · exact .inl hraise.movesNoCounter.toStoresNothing
    · obtain ⟨-, hopens, hconfigs, -⟩ := hrecv.keeps
      unfold checkStatus at hstatus
      split at hstatus <;> cases hstatus
      · exact .inl { frame := hquiet.frameKeeps (by simp) (by simpa using hopens) (by simpa using hconfigs) }
      · exact .inl { frame := hquiet.frameKeeps (by simp) (by simpa using hopens) (by simpa using hconfigs) }
  · rename_i last hseq
    obtain rfl | hraise | ⟨a, aw, l, hrecv, hne, hstore⟩ := receiveInput_shape h
    · exact .inl { frame := hquiet.frameKeeps rfl rfl rfl }
    · exact .inl hraise.movesNoCounter.toStoresNothing
    · obtain ⟨-, hopens, hconfigs, -⟩ := hrecv.keeps
      unfold storeInput at hstore
      split at hstore
      · cases hstore
      · rename_i hfull
        cases hstore
        have hroom : s.cursor.toNat + a.length ≤ s.args.len.toNat := by simpa using hfull
        have hcursor := advance_toNat hroom
        exact .inr ⟨⟨last, hseq⟩,
          { frame := hquiet.frameKeeps (by simp) (by simpa using hopens) (by simpa using hconfigs)
            nonempty := by simpa using hne
            input := ⟨.inr ⟨last, hseq⟩, by simp, by simpa using hcursor, by simpa [hcursor] using hroom⟩ }⟩
  · cases h

/-- Settles O51: only the input phase stores, inside the range of the bytes now in ABUF, and the store moves CURSOR. -/
theorem wtrFrame : Obligations.WtrFrame := by
  intro r out s t h
  obtain hkept | ⟨⟨last, hseq⟩, hstore⟩ := execWtr_stores h
  · simp [hkept.frame, hkept.conn, hkept.cursor, hkept.rbuf]
  · refine ⟨hstore.frame, hstore.conn, ?_, fun i => hstore.read_outside, ?_⟩
    · exact fun hne => absurd hseq (hne last)
    · exact fun hsame => absurd hsame hstore.cursor_ne

end Sys2Proof.Machine
end

section
/-!
PROOFS. The host's side of the bridge operations phase by phase (43_bridge_ops R170, R178, R179, R185): the checks of WRITE
and READ, DELAY, a transaction that is refused, and RESELECT_READ (42_frame_codec R142).
-/
namespace Sys2Proof.Machine

/-! ## The checks (R170) -/

theorem writeCheck_of_ne {c : Conn} {len : Half} (hconn : c ≠ .i2cMode) :
    writeCheck c len = some .invalidStateError := by
  simp [writeCheck, hconn]

theorem writeCheck_of_long {c : Conn} {len : Half} (hconn : c = .i2cMode) (hlong : 126 < len.toNat) :
    writeCheck c len = some .payloadTooLargeError := by
  simp [writeCheck, hconn, lenTooLong, Config.maxWriteLen, hlong]

theorem writeCheck_of_short {c : Conn} {len : Half} (hconn : c = .i2cMode) (hshort : len.toNat ≤ 126) :
    writeCheck c len = none := by
  simp [writeCheck, hconn, lenTooLong, Config.maxWriteLen, hshort.not_gt]

theorem readCheck_of_ne {c : Conn} (hconn : c ≠ .i2cMode) : readCheck c = some .invalidStateError := by
  simp [readCheck, hconn]

theorem readCheck_of_i2cMode {c : Conn} (hconn : c = .i2cMode) : readCheck c = none := by
  simp [readCheck, hconn]

section Checks

variable {q : Operands} {s : State} {result : Option Status} (hb : s.busy = true)
include hb

theorem exec_write_check (hseq : s.seq = .wCheck) (hcheck : writeCheck s.conn q.len = result) :
    exec (.write q) s = .next (afterCheck result .wDone .wAddrTx s) := by
  simp [exec, execWrite, hb, hseq, hcheck]

theorem exec_write_combinedCheck (hseq : s.seq = .xCheck) (hcheck : writeCheck s.conn q.len = result) :
    exec (.write q) s = .next (afterCombinedCheck result true s) := by
  simp [exec, execWrite, hb, hseq, hcheck]

theorem exec_read_check (hseq : s.seq = .rCheck) (hcheck : readCheck s.conn = result) :
    exec (.read q) s = .next (afterCheck result .rDone .rAddrTx s) := by
  simp [exec, execRead, hb, hseq, hcheck]

theorem exec_read_combinedCheck (hseq : s.seq = .xCheck) (hcheck : readCheck s.conn = result) :
    exec (.read q) s = .next (afterCombinedCheck result false s) := by
  simp [exec, execRead, hb, hseq, hcheck]

end Checks

/-- Settles O33: each check phase is one `afterCheck` or `afterCombinedCheck`, of the check's result. -/
theorem transactionChecks : Obligations.TransactionChecks := by
  intro q s hb
  refine ⟨fun hconn => ?_, fun hconn => ?_⟩
  · exact ⟨fun hseq => exec_write_check hb hseq (writeCheck_of_ne hconn),
      fun hseq => exec_write_combinedCheck hb hseq (writeCheck_of_ne hconn),
      fun hseq => exec_read_check hb hseq (readCheck_of_ne hconn),
      fun hseq => exec_read_combinedCheck hb hseq (readCheck_of_ne hconn)⟩
  · exact ⟨fun hseq hlong => exec_write_check hb hseq (writeCheck_of_long hconn hlong),
      fun hseq hlong => exec_write_combinedCheck hb hseq (writeCheck_of_long hconn hlong),
      fun hseq hshort => exec_write_check hb hseq (writeCheck_of_short hconn hshort),
      fun hseq hshort => exec_write_combinedCheck hb hseq (writeCheck_of_short hconn hshort),
      fun hseq => exec_read_check hb hseq (readCheck_of_i2cMode hconn),
      fun hseq => exec_read_combinedCheck hb hseq (readCheck_of_i2cMode hconn)⟩

/-- Settles O35: DELAY's two phases in flight are a move of SEQ and one `complete`. -/
theorem delayOnlyCompletes : Obligations.DelayOnlyCompletes := by
  intro q s hb
  refine ⟨fun hseq => ?_, fun hseq => ?_⟩
  · simp [exec, execDelay, hb, hseq]
  · simp [exec, execDelay, hb, hseq, complete]

/-! ## The frame of the host operations -/

/-- A step that leaves CURSOR alone and, in flight, what acceptance latched (R18, R103). -/
structure KeepsOperands (s t : State) : Prop where
  cursor  : t.cursor = s.cursor := by rfl
  latched : s.busy = true → t.op = s.op ∧ t.args = s.args ∧ t.port = s.port := by exact fun _ => ⟨rfl, rfl, rfl⟩

theorem accept_keepsOperands {s : State} (code : BitVec 3) (q : Operands) (first : Seq) (hidle : s.busy = false) :
    KeepsOperands s (accept code q first s) :=
  { latched := fun hb => by simp [hidle] at hb }

theorem execInit_keepsOperands {q : Operands} {s t : State} (h : execInit q s = .next t) : KeepsOperands s t := by
  unfold execInit at h
  split at h
  · cases h
    exact accept_keepsOperands _ _ _ ‹_›
  · split at h
    · cases h
      exact {}
    · split at h <;> cases h
      · exact {}
      · obtain ⟨-, rest, -, rfl⟩ := openTransport_returned ‹_›
        exact {}
      · obtain ⟨-, rest, -, rfl⟩ := openTransport_returned ‹_›
        exact {}
    · split at h <;> cases h
      · exact {}
      · obtain ⟨-, rest, -, rfl⟩ := configureLine_returned ‹_›
        exact {}
      · obtain ⟨-, rest, -, rfl⟩ := configureLine_returned ‹_›
        exact {}
    · cases h
      exact {}
    · split at h <;> cases h
      · exact {}
      · obtain ⟨-, rfl⟩ := releaseTransport_returned ‹_›
        exact {}
    · cases h
      exact {}
    · cases h

/-- CLOSE calls nothing but `release` by itself, and leaves the strategy to the next INIT (R126). -/
theorem execClose_frame {q : Operands} {s t : State} (h : execClose q s = .next t) :
    KeepsOperands s t ∧ t.strat = s.strat ∧ t.link.opens = s.link.opens ∧ t.link.configs = s.link.configs := by
  unfold execClose at h
  split at h
  · cases h
    exact ⟨accept_keepsOperands _ _ _ ‹_›, rfl, rfl, rfl⟩
  · split at h
    · cases h
      exact ⟨{}, rfl, rfl, rfl⟩
    · split at h <;> cases h
      · exact ⟨{}, rfl, rfl, rfl⟩
      · obtain ⟨-, rfl⟩ := releaseTransport_returned ‹_›
        exact ⟨{}, rfl, rfl, rfl⟩
    · cases h
      exact ⟨{}, rfl, rfl, rfl⟩
    · cases h

/-- A step of DELAY, and of WRITE and READ but where a Combined one starts or one is aborted: acceptance, a move of SEQ,
or completion. -/
inductive PlainStep (s t : State) : Prop
  | accepted (code : BitVec 3) (q : Operands) (first : Seq) (idle : s.busy = false) (next : t = accept code q first s)
  | moved (ph : Seq) (next : t = { s with seq := ph })
  | completed (r : Status) (next : t = complete r s)

/-- A step of WRITE or READ outside their frames (R170, R178, R179, R213). -/
inductive TransactionStep (s t : State) : Prop
  | plain (step : PlainStep s t)
  | started (last : Bool) (phase : s.seq = .xCheck) (next : t = { s with cursor := 0, seq := .xCmdTx last })
  | aborted (e : Status) (phase : s.seq = .raised e) (next : t = abortTransaction e s)

theorem PlainStep.frame {s t : State} (h : PlainStep s t) :
    KeepsOperands s t ∧ t.conn = s.conn ∧ t.strat = s.strat ∧ t.desync = s.desync ∧ t.link = s.link := by
  cases h with
  | accepted code q first idle next =>
    subst next
    exact ⟨accept_keepsOperands _ _ _ idle, rfl, rfl, rfl, rfl⟩
  | moved ph next =>
    subst next
    exact ⟨{}, rfl, rfl, rfl, rfl⟩
  | completed r next =>
    subst next
    exact ⟨{}, rfl, rfl, rfl, rfl⟩

theorem afterCheck_step (result : Option Status) (done : Status → Seq) (go : Seq) (s : State) :
    TransactionStep s (afterCheck result done go s) := by
  cases result with
  | none => exact .plain (.moved _ rfl)
  | some e => exact .plain (.moved _ rfl)

theorem afterCombinedCheck_step {result : Option Status} {last : Bool} {s : State} (hseq : s.seq = .xCheck) :
    TransactionStep s (afterCombinedCheck result last s) := by
  cases result with
  | none => exact .started last hseq rfl
  | some e => exact .plain (.moved _ rfl)

theorem execWrite_step {q : Operands} {s t : State} (h : execWrite q s = .next t) : TransactionStep s t := by
  unfold execWrite at h
  split at h
  · cases h
    exact .plain (.accepted _ _ _ ‹_› rfl)
  · split at h <;> cases h
    · exact afterCheck_step _ _ _ s
    · exact afterCombinedCheck_step ‹_›
    · exact .plain (.completed _ rfl)
    · exact .plain (.completed _ rfl)
    · exact .aborted _ ‹_› rfl

theorem execRead_step {q : Operands} {s t : State} (h : execRead q s = .next t) : TransactionStep s t := by
  unfold execRead at h
  split at h
  · cases h
    exact .plain (.accepted _ _ _ ‹_› rfl)
  · split at h <;> cases h
    · exact afterCheck_step _ _ _ s
    · exact afterCombinedCheck_step ‹_›
    · exact .plain (.completed _ rfl)
    · exact .plain (.completed _ rfl)
    · exact .aborted _ ‹_› rfl

theorem execDelay_step {q : Operands} {s t : State} (h : execDelay q s = .next t) : PlainStep s t := by
  unfold execDelay at h
  split at h
  · cases h
    exact .accepted _ _ _ ‹_› rfl
  · split at h <;> cases h
    · exact .moved _ rfl
    · exact .completed _ rfl

theorem TransactionStep.latched {s t : State} (h : TransactionStep s t) (hb : s.busy = true) :
    t.op = s.op ∧ t.args = s.args ∧ t.port = s.port := by
  cases h with
  | plain step =>
    obtain ⟨hkept, -⟩ := step.frame
    exact hkept.latched hb
  | started last phase next => simp [next]
  | aborted e phase next => simp [next]

theorem TransactionStep.frame {s t : State} (h : TransactionStep s t) :
    t.conn = s.conn ∧ t.strat = s.strat ∧ t.link = s.link ∧
      (t.cursor = s.cursor ∨ (s.seq = .xCheck ∧ t.cursor = 0)) ∧
      (t.desync = s.desync ∨ ∃ e, s.seq = .raised e ∧ t.desync = true) := by
  cases h with
  | plain step =>
    obtain ⟨hkept, hconn, hstrat, hdesync, hlink⟩ := step.frame
    exact ⟨hconn, hstrat, hlink, .inl hkept.cursor, .inl hdesync⟩
  | started last phase next =>
    subst next
    exact ⟨rfl, rfl, rfl, .inr ⟨phase, rfl⟩, .inl rfl⟩
  | aborted e phase next =>
    subst next
    exact ⟨rfl, rfl, rfl, .inl rfl, .inr ⟨e, phase, rfl⟩⟩

/-- Settles O36, by what a step of each operation can be. -/
theorem hostOperationsFrame : Obligations.HostOperationsFrame := by
  intro q s t
  refine ⟨fun h => ⟨execInit_keeps h, (execInit_keepsOperands h).cursor⟩, fun h => ?_, ?_, fun h => ?_, ?_⟩
  · obtain ⟨hkept, hstrat, hopens, hconfigs⟩ := execClose_frame h
    exact ⟨execClose_keeps h, hkept.cursor, hstrat, hopens, hconfigs⟩
  · rintro (h | h)
    · exact ⟨execWrite_keeps h, (execWrite_step h).frame⟩
    · exact ⟨execRead_keeps h, (execRead_step h).frame⟩
  · obtain ⟨hkept, hrest⟩ := (execDelay_step h).frame
    exact ⟨execDelay_keeps h, hkept.cursor, hrest⟩
  · rintro (h | h | h | h | h) hb
    · exact (execInit_keepsOperands h).latched hb
    · obtain ⟨hkept, -⟩ := execClose_frame h
      exact hkept.latched hb
    · exact (execWrite_step h).latched hb
    · exact (execRead_step h).latched hb
    · obtain ⟨hkept, -⟩ := (execDelay_step h).frame
      exact hkept.latched hb

/-! ## A refused transaction (R170) -/

theorem exec_write_accept {q : Operands} {s : State} {first : Seq} (hidle : s.busy = false)
    (hfirst : firstPhase s.strat .wCheck = first) : exec (.write q) s = .next (accept 2 q first s) := by
  simp [exec, execWrite, hidle, hfirst]

theorem exec_read_accept {q : Operands} {s : State} {first : Seq} (hidle : s.busy = false)
    (hfirst : firstPhase s.strat .rCheck = first) : exec (.read q) s = .next (accept 3 q first s) := by
  simp [exec, execRead, hidle, hfirst]

theorem exec_write_done {q : Operands} {s : State} {r : Status} (hb : s.busy = true)
    (hseq : s.seq = .wDone r ∨ s.seq = .xDone r) : exec (.write q) s = .next (complete r s) := by
  obtain ⟨hwrite, -⟩ := transactionEnds q s r hb
  exact hwrite hseq

theorem exec_read_done {q : Operands} {s : State} {r : Status} (hb : s.busy = true)
    (hseq : s.seq = .rDone r ∨ s.seq = .xDone r) : exec (.read q) s = .next (complete r s) := by
  obtain ⟨-, hread, -⟩ := transactionEnds q s r hb
  exact hread hseq

/-- A request that its check refuses takes three steps, acceptance, the check and the completion, and leaves only the
latched operands and STATUS. -/
theorem run_of_refused {code : BitVec 3} {q : Operands} {s : State} {i : Instr} {first done : Seq} {e : Status}
    (hready : ReadyFor { op := code, args := q } s) (hidle : s.seq = .idle)
    (haccept : exec (decodeRequest { op := code, args := q }) s = .next (accept code q first s))
    (hdueFirst : phaseInstr (accept code q first s) = some i) (hdueDone : phaseInstr (accept code q done s) = some i)
    (hcheck : exec i (accept code q first s) = .next (accept code q done s))
    (hdone : exec i (accept code q done s) = .next (complete e (accept code q done s))) :
    Host.Core.run Sys2Proof.core 3 s = .next { s with op := code, args := q, port := none, status := e } := by
  refine run_of_request hready haccept ?_
  refine run_of_exec hready.noReset rfl hdueFirst hcheck ?_
  refine run_of_exec hready.noReset rfl hdueDone hdone ?_
  simp [Host.Core.run, complete, accept, hready.settled, hready.idle, ← hidle]

theorem perByte_or_combined (strat : Strategy) : strat = .perByte ∨ strat = .combined := by
  cases strat with
  | perByte => exact .inl rfl
  | combined => exact .inr rfl

theorem run_of_refused_write {q : Operands} {s : State} {e : Status} (hready : ReadyFor { op := 2, args := q } s)
    (hidle : s.seq = .idle) (hcheck : writeCheck s.conn q.len = some e) :
    Host.Core.run Sys2Proof.core 3 s = .next { s with op := 2, args := q, port := none, status := e } := by
  obtain hstrat | hstrat := perByte_or_combined s.strat
  · exact run_of_refused hready hidle (exec_write_accept hready.idle (by rw [hstrat]; rfl)) rfl rfl
      (exec_write_check (s := accept 2 q .wCheck s) rfl rfl hcheck) (exec_write_done rfl (.inl rfl))
  · exact run_of_refused hready hidle (exec_write_accept hready.idle (by rw [hstrat]; rfl)) rfl rfl
      (exec_write_combinedCheck (s := accept 2 q .xCheck s) rfl rfl hcheck) (exec_write_done rfl (.inr rfl))

theorem run_of_refused_read {q : Operands} {s : State} {e : Status} (hready : ReadyFor { op := 3, args := q } s)
    (hidle : s.seq = .idle) (hcheck : readCheck s.conn = some e) :
    Host.Core.run Sys2Proof.core 3 s = .next { s with op := 3, args := q, port := none, status := e } := by
  obtain hstrat | hstrat := perByte_or_combined s.strat
  · exact run_of_refused hready hidle (exec_read_accept hready.idle (by rw [hstrat]; rfl)) rfl rfl
      (exec_read_check (s := accept 3 q .rCheck s) rfl rfl hcheck) (exec_read_done rfl (.inl rfl))
  · exact run_of_refused hready hidle (exec_read_accept hready.idle (by rw [hstrat]; rfl)) rfl rfl
      (exec_read_combinedCheck (s := accept 3 q .xCheck s) rfl rfl hcheck) (exec_read_done rfl (.inr rfl))

/-- Settles O56: the check fails, with the error of its first broken condition. -/
theorem refusedTransactionsSendNothing : Obligations.RefusedTransactionsSendNothing := by
  intro q s hidle
  refine ⟨fun hready hconn hlong => ?_, fun hready hconn => ?_, fun hready hconn => ?_⟩
  · exact run_of_refused_write hready hidle (writeCheck_of_long hconn hlong)
  · exact run_of_refused_write hready hidle (writeCheck_of_ne (by rw [hconn]; decide))
  · exact run_of_refused_read hready hidle (readCheck_of_ne (by rw [hconn]; decide))

/-! ## RESELECT_READ (R142) -/

theorem nextByte_eq (s : State) :
    nextByte s = { s with seq := if s.cursor.toNat < s.args.len.toNat then .rByteTx else .rEndTx } := by
  simp [nextByte, moreBytes]

/-- At the start of the data phase every byte up to LEN is still to be read. -/
theorem nextByte_start (s : State) :
    nextByte { s with cursor := 0 } = { s with cursor := 0, seq := if s.args.len = 0 then .rEndTx else .rByteTx } := by
  rw [nextByte_eq]
  by_cases hlen : s.args.len = 0
  · simp [hlen]
  · have hpos : 0 < s.args.len.toNat := Nat.pos_of_ne_zero fun h => hlen (BitVec.eq_of_toNat_eq h)
    simpa [hpos] using hlen

theorem exec_reselectRead_send (dev : BitVec 7) (s : State) (hseq : s.seq = .rReselTx) :
    exec (.reselectRead dev) s = sendFrame .txn (frameBytes s.params (.reselectRead dev)) 3 .rReselRx s := by
  simp [exec, execReselectRead, hseq]

theorem exec_reselectRead_receive (dev : BitVec 7) (s : State) (hseq : s.seq = .rReselRx) :
    exec (.reselectRead dev) s = receiveAck .txn 3 (fun u => .next (nextByte { u with cursor := 0 })) s := by
  simp [exec, execReselectRead, hseq]

/-- Settles O41: one exchange, whose acknowledgment leads to the loop head of READ with CURSOR 0. -/
theorem reselectReadExchange : Obligations.ReselectReadExchange := by
  refine fun dev => ⟨fun _ => rfl, ?_⟩
  simp only [← nextByte_start]
  exact exchange_of_halves (fun _ => frameBytes_ne_nil rfl rfl) (by decide) (by decide) (exec_reselectRead_send dev)
    (exec_reselectRead_receive dev)

end Sys2Proof.Machine
end

section
/-!
PROOFS. What it takes to run a transaction to its end (43_bridge_ops R170 to R175): a run that completes with `Ok`, put
together from its last step backwards, an exchange at a time.
-/
namespace Sys2Proof.Machine

/-! ## Runs that end well -/

/-- `n` steps from `s` complete the transaction in flight with `Ok`: RBUF then holds `rbuf`, the transport calls made are
`calls`, and CONN and DESYNC are as before. -/
def CompletesOk (n : Nat) (rbuf : Memory) (calls : List Call) (s : State) : Prop :=
  ∃ t, Host.Core.run Sys2Proof.core n s = .next t ∧ t.status = .ok ∧ t.busy = false ∧ t.conn = s.conn ∧
    t.desync = s.desync ∧ t.rbuf = rbuf ∧ t.link.wire = s.link.wire ++ calls

/-- What a step on the way to a completion keeps, and the calls it adds to the history. -/
structure Advances (calls : List Call) (s u : State) : Prop where
  conn   : u.conn = s.conn := by rfl
  desync : u.desync = s.desync := by rfl
  wire   : u.link.wire = s.link.wire ++ calls := by rfl

/-- A run that ends well may be preceded by any steps that keep CONN and DESYNC. -/
theorem CompletesOk.before {m n : Nat} {rbuf : Memory} {earlier calls : List Call} {s u : State}
    (h : CompletesOk n rbuf calls u) (hadv : Advances earlier s u)
    (hrun : ∀ o, Host.Core.run Sys2Proof.core n u = o → Host.Core.run Sys2Proof.core m s = o) :
    CompletesOk m rbuf (earlier ++ calls) s := by
  obtain ⟨t, hend, hstatus, hbusy, hconn, hdesync, hrbuf, hwire⟩ := h
  refine ⟨t, hrun _ hend, hstatus, hbusy, hconn.trans hadv.conn, hdesync.trans hadv.desync, hrbuf, ?_⟩
  rw [hwire, hadv.wire, List.append_assoc]

/-- An operation in flight that holds the transport, with nothing owed and no reset due. -/
structure InTransaction (s : State) : Prop where
  noReset : s.resetReq = none
  running : s.busy = true
  held    : s.conn ≠ .closed
  free    : s.await = 0

/-- The last step of a transaction whose result is `Ok` (R104). -/
theorem InTransaction.completesOk {s : State} {i : Instr} (h : InTransaction s) (hdue : phaseInstr s = some i)
    (hexec : exec i s = .next (complete .ok s)) : CompletesOk 1 s.rbuf [] s :=
  ⟨_, run_of_exec h.noReset h.running hdue hexec rfl, rfl, rfl, rfl, rfl, rfl, (List.append_nil _).symm⟩

/-- The two steps before a transaction's first frame: acceptance and the check (R103, R170). -/
theorem run_of_started {n : Nat} {code : BitVec 3} {q : Operands} {s u : State} {i : Instr} {first : Seq} {o : Out}
    (hready : ReadyFor { op := code, args := q } s)
    (haccept : exec (decodeRequest { op := code, args := q }) s = .next (accept code q first s))
    (hdue : phaseInstr (accept code q first s) = some i) (hcheck : exec i (accept code q first s) = .next u)
    (hrun : Host.Core.run Sys2Proof.core n u = o) : Host.Core.run Sys2Proof.core (n + 2) s = o :=
  run_of_request hready haccept (run_of_exec hready.noReset rfl hdue hcheck hrun)

/-- Acceptance and the check make no transport call. -/
theorem CompletesOk.of_started {n : Nat} {code : BitVec 3} {q : Operands} {s u : State} {i : Instr} {first : Seq}
    {rbuf : Memory} {calls : List Call} (hready : ReadyFor { op := code, args := q } s)
    (haccept : exec (decodeRequest { op := code, args := q }) s = .next (accept code q first s))
    (hdue : phaseInstr (accept code q first s) = some i) (hcheck : exec i (accept code q first s) = .next u)
    (hconn : u.conn = s.conn) (hdesync : u.desync = s.desync) (hlink : u.link = s.link)
    (hrest : CompletesOk n rbuf calls u) : CompletesOk (n + 2) rbuf calls s :=
  hrest.before (earlier := []) ⟨hconn, hdesync, by simp [hlink]⟩ fun _ => run_of_started hready haccept hdue hcheck

/-! ## A validated exchange on the way -/

theorem InTransaction.exchangeDue {i : Instr} {txPh rxPh : Seq} {s : State} (h : InTransaction s)
    (hphase : s.seq = txPh) (hsend : phaseInstr s = some i)
    (hreceive : ∀ aw l, phaseInstr { s with await := aw, seq := rxPh, link := l } = some i) :
    ExchangeDue i txPh rxPh s :=
  ⟨h.noReset, h.running, hphase, h.held, h.free, hsend, hreceive⟩

/-- An exchange that is answered well comes before whatever its acknowledgment leads to (R100). -/
theorem CompletesOk.of_exchange {n k : Nat} {i : Instr} {txPh rxPh : Seq} {go : State → Out} {s t : State}
    {ack : List Byte} {frames acks : List (List Byte)} {moreS : List TxAnswer} {moreR : List RxAnswer} {rbuf : Memory}
    {calls : List Call}
    (hsend : SendsWhole i txPh rxPh (BitVec.ofNat 17 k)) (hack : AckLeadsTo i rxPh k go) (hk : ack.length = k)
    (hbound : k ≤ Config.chunkR) (hdue : ExchangeDue i txPh rxPh s)
    (hwell : AnswersWell (frameBytes s.params i :: frames) (ack :: acks) moreS moreR s.link)
    (hgo : go (afterExchange rxPh (frameBytes s.params i) ack s) = .next t)
    (hadv : Advances (exchangeCalls (frameBytes s.params i) ack) s t)
    (hrest : CompletesOk n rbuf calls t) :
    CompletesOk (n + 2) rbuf (exchangeCalls (frameBytes s.params i) ack ++ calls) s :=
  hrest.before hadv fun _ => run_of_exchange hsend hack hk hbound hdue hwell hgo

end Sys2Proof.Machine
end

section
/-!
PROOFS. A PerByte READ from request to completion (43_bridge_ops R173, R174).
-/
namespace Sys2Proof.Machine

/-- The state after a READ_BYTE whose byte `b` was stored at CURSOR, at the loop head (R173). -/
def afterByte (b : Byte) (s : State) : State :=
  { afterExchange .rByteRx (frameBytes s.params .readByte) [b] s with
    rbuf := s.rbuf.write s.cursor.toNat b, cursor := s.cursor + 1 }

theorem storeByte_afterExchange {b : Byte} {s : State} (hroom : s.cursor.toNat < s.args.len.toNat) :
    storeByte (afterExchange .rByteRx (frameBytes s.params .readByte) [b] s) = .next (nextByte (afterByte b s)) :=
  if_pos (decide_eq_true hroom)

theorem ackLeadsTo_readByte : AckLeadsTo .readByte .rByteRx 1 storeByte :=
  ackLeadsTo_of_receiveAck (by decide) (by decide) exec_readByte_receive

/-- END_READ and the completion, once CURSOR has reached LEN. -/
theorem completesOk_of_endRead {s : State} {ack : List Byte} {moreS : List TxAnswer} {moreR : List RxAnswer}
    (h : InTransaction s) (hseq : s.seq = .rEndTx) (hack : ack.length = 3)
    (hwell : AnswersWell [frameBytes s.params .endRead] [ack] moreS moreR s.link) :
    CompletesOk 3 s.rbuf (exchangeCalls (frameBytes s.params .endRead) ack) s := by
  obtain ⟨-, hsend, -, hleads, -⟩ := endReadExchange
  have hdone : InTransaction { afterExchange .rEndRx (frameBytes s.params .endRead) ack s with seq := .rDone .ok } :=
    ⟨h.noReset, h.running, h.held, rfl⟩
  exact .of_exchange hsend hleads hack (by decide)
    (h.exchangeDue hseq (by simp [phaseInstr, hseq]) fun _ _ => rfl) hwell rfl {}
    (hdone.completesOk rfl (exec_read_done h.running (.inl rfl)))

/-- The data phase of a PerByte READ, by the bytes still to come. -/
theorem completesOk_of_readBytes (data : List Byte) {s : State} {ackEnd : List Byte} {moreS : List TxAnswer}
    {moreR : List RxAnswer} (h : InTransaction s) (hlen : s.cursor.toNat + data.length = s.args.len.toNat)
    (hend : ackEnd.length = 3)
    (hwell : AnswersWell (List.replicate data.length (frameBytes s.params .readByte) ++ [frameBytes s.params .endRead])
      (data.map (fun b => [b]) ++ [ackEnd]) moreS moreR s.link) :
    CompletesOk (2 * data.length + 3) (s.rbuf.writeAll s.cursor.toNat data)
      (List.zipWith exchangeCalls
        (List.replicate data.length (frameBytes s.params .readByte) ++ [frameBytes s.params .endRead])
        (data.map (fun b => [b]) ++ [ackEnd])).flatten (nextByte s) := by
  induction data generalizing s with
  | nil =>
    have hcursor : ¬s.cursor.toNat < s.args.len.toNat := by rw [List.length_nil] at hlen; omega
    rw [nextByte_eq, if_neg hcursor]
    have hdue : InTransaction { s with seq := .rEndTx } := ⟨h.noReset, h.running, h.held, h.free⟩
    simpa [Memory.writeAll] using completesOk_of_endRead hdue rfl hend hwell
  | cons b data ih =>
    have hroom : s.cursor.toNat < s.args.len.toNat := by rw [List.length_cons] at hlen; omega
    have hcursor : (afterByte b s).cursor.toNat = s.cursor.toNat + 1 := advance_toNat hroom
    have hrest := ih (s := afterByte b s) ⟨h.noReset, h.running, h.held, rfl⟩
      (by rw [hcursor, Nat.add_assoc, Nat.add_comm 1]; exact hlen)
      (hwell.after .rByteRx)
    rw [hcursor] at hrest
    rw [nextByte_eq, if_pos hroom]
    have hdue : InTransaction { s with seq := .rByteTx } := ⟨h.noReset, h.running, h.held, h.free⟩
    obtain ⟨-, hsend, -⟩ := readByteExchange
    exact .of_exchange hsend ackLeadsTo_readByte rfl (by decide)
      (hdue.exchangeDue rfl rfl fun _ _ => rfl) hwell (storeByte_afterExchange hroom) {} hrest

theorem readFrames_length (p : Params) (q : Operands) : (readFrames p q).length = 3 + q.len.toNat := by
  simp only [readFrames, List.length_cons, List.length_append, List.length_replicate, List.length_nil]
  omega

theorem readFrames_flatten_length (p : Params) (q : Operands) :
    (readFrames p q).flatten.length = 4 + 3 + 2 * q.len.toNat + 3 := by
  have hbytes : (List.replicate q.len.toNat (frameBytes p .readByte)).flatten.length = q.len.toNat * 2 := by
    simp [frameBytes]
  rw [readFrames, List.flatten_cons, List.flatten_cons, List.flatten_append, List.length_append, List.length_append,
    List.length_append, hbytes]
  simp only [addrSelectOf, frameBytes, List.length_cons, List.length_nil, List.flatten_cons, List.flatten_nil,
    List.append_nil]
  omega

/-- A PerByte READ that is answered well: acceptance, the check, the two select frames, and the data phase from
CURSOR 0. -/
theorem completesOk_of_read {q : Operands} {s : State} {ack1 ack2 ackEnd data : List Byte} {moreS : List TxAnswer}
    {moreR : List RxAnswer} (hready : ReadyFor { op := 3, args := q } s) (hconn : s.conn = .i2cMode)
    (hstrat : s.strat = .perByte) (hack1 : ack1.length = 4) (hack2 : ack2.length = 3) (hend : ackEnd.length = 3)
    (hlen : data.length = q.len.toNat)
    (hwell : AnswersWell (readFrames s.params q) (ack1 :: ack2 :: (data.map (fun b => [b]) ++ [ackEnd])) moreS moreR
      s.link) :
    CompletesOk (2 * data.length + 3 + 2 + 2 + 2) (s.rbuf.writeAll 0 data)
      (List.zipWith exchangeCalls (readFrames s.params q)
        (ack1 :: ack2 :: (data.map (fun b => [b]) ++ [ackEnd]))).flatten s := by
  have hheld : s.conn ≠ .closed := by rw [hconn]; decide
  rw [readFrames, ← hlen] at hwell ⊢
  obtain ⟨-, -, hsend1, -, hleads1, -⟩ := addrSelectExchange q.devId q.regAddr
  obtain ⟨-, hsend2, -, hleads2, -⟩ := reselectReadExchange q.devId
  simp only [← nextByte_start] at hleads2
  have hselect : InTransaction (accept 3 q .rAddrTx s) := ⟨hready.noReset, rfl, hheld, hready.settled⟩
  have hreselect : InTransaction
      { afterExchange .rAddrRx (frameBytes s.params (addrSelectOf q)) ack1 (accept 3 q .rAddrTx s) with
        seq := .rReselTx } := ⟨hready.noReset, rfl, hheld, rfl⟩
  have hwell2 := hwell.after (s := accept 3 q .rAddrTx s) .rAddrRx
  exact
    .of_started hready (exec_read_accept (first := .rCheck) hready.idle (by rw [hstrat]; rfl)) rfl
      (exec_read_check (s := accept 3 q .rCheck s) rfl rfl (readCheck_of_i2cMode hconn)) rfl rfl rfl <|
    .of_exchange hsend1 hleads1 hack1 (by decide) (hselect.exchangeDue rfl rfl fun _ _ => rfl) hwell rfl {} <|
    .of_exchange hsend2 hleads2 hack2 (by decide) (hreselect.exchangeDue rfl rfl fun _ _ => rfl) hwell2 rfl {} <|
    completesOk_of_readBytes data ⟨hready.noReset, rfl, hheld, rfl⟩ ((Nat.zero_add _).trans hlen) hend
      (hwell2.after .rReselRx)

/-- Settles O58: what the frames are, and the run that sends them. -/
theorem perByteReadRuns : Obligations.PerByteReadRuns := by
  intro q s ack1 ack2 ackEnd data moreS moreR hready hconn hstrat hack1 hack2 hend hlen hwell
  have hsteps : 3 + 2 * (readFrames s.params q).length = 2 * data.length + 3 + 2 + 2 + 2 := by
    rw [readFrames_length]
    omega
  obtain ⟨t, hrun, hstatus, hbusy, htconn, hdesync, hrbuf, hwire⟩ :=
    completesOk_of_read hready hconn hstrat hack1 hack2 hend hlen hwell
  have hstored : Stored s.rbuf t.rbuf 0 data := by
    rw [hrbuf]
    exact stored_writeAll _ _ _
  exact ⟨readFrames_length _ q, readFrames_flatten_length _ q, t, by rw [hsteps, hrun], hstatus, hbusy,
    htconn.trans hconn, hdesync, hrbuf, hstored, hwire⟩

end Sys2Proof.Machine
end

section
/-!
PROOFS. A PerByte WRITE from request to completion (43_bridge_ops R171, R172): the chunks of its payload, the frames they
give, and the run that sends them.
-/
namespace Sys2Proof.Machine

/-! ## Runs of a buffer cut in two (R41) -/

theorem Memory.take_readAll (m : Memory) (i n k : Nat) : (m.readAll i n).take k = m.readAll i (min k n) := by
  induction n generalizing i k with
  | zero => simp [Memory.readAll]
  | succ n ih =>
    cases k with
    | zero => simp [Memory.readAll]
    | succ k => simp [Memory.readAll, ih, Nat.add_min_add_right]

theorem Memory.drop_readAll (m : Memory) (i n k : Nat) : (m.readAll i n).drop k = m.readAll (i + k) (n - k) := by
  induction n generalizing i k with
  | zero => simp [Memory.readAll]
  | succ n ih =>
    cases k with
    | zero => rfl
    | succ k => simp [Memory.readAll, ih, Nat.add_assoc, Nat.add_comm 1]

/-! ## The frames of the data phase (R145, R171) -/

theorem chunksOf_nil (fuel : Nat) : chunksOf fuel [] = [] := by
  cases fuel with
  | zero => rfl
  | succ fuel => rfl

theorem chunksOf_succ {fuel : Nat} {data : List Byte} (h : data ≠ []) :
    chunksOf (fuel + 1) data = data.take 15 :: chunksOf fuel (data.drop 15) := if_neg h

theorem chunksOf_length (fuel : Nat) (data : List Byte) (h : data.length ≤ fuel) :
    (chunksOf fuel data).length = (data.length + 14) / 15 := by
  induction fuel generalizing data with
  | zero => simp [chunksOf, Nat.le_zero.mp h]
  | succ fuel ih =>
    by_cases hnil : data = []
    · simp [hnil, chunksOf_nil]
    · have hpos := List.length_pos_iff.mpr hnil
      have hrest := ih (data.drop 15) (by rw [List.length_drop]; omega)
      rw [chunksOf_succ hnil, List.length_cons, hrest, List.length_drop]
      omega

/-- The frames of a WRITE after ADDR_SELECT: the bulk-write frames of its chunks, and STOP. -/
def dataFrames (p : Params) (chunks : List (List Byte)) : List (List Byte) :=
  chunks.flatMap (bulkFrames p) ++ [frameBytes p .stop]

theorem dataFrames_cons (p : Params) (chunk : List Byte) (chunks : List (List Byte)) :
    dataFrames p (chunk :: chunks) =
      frameBytes p (.bulkHdr (BitVec.ofNat 4 chunk.length)) :: chunk :: dataFrames p chunks := by
  simp [dataFrames, bulkFrames, frameBytes]

theorem dataFrames_length (p : Params) (chunks : List (List Byte)) :
    (dataFrames p chunks).length = 2 * chunks.length + 1 := by
  induction chunks with
  | nil => rfl
  | cons chunk chunks ih =>
    rw [dataFrames_cons, List.length_cons, List.length_cons, ih, List.length_cons]
    omega

theorem dataFrames_flatten_length (p : Params) (chunks : List (List Byte)) :
    (dataFrames p chunks).flatten.length = chunks.length + chunks.flatten.length + 1 := by
  induction chunks with
  | nil => rfl
  | cons chunk chunks ih =>
    simp only [dataFrames_cons, List.flatten_cons, List.length_append, ih, List.length_cons, frameBytes,
      List.length_nil]
    omega

theorem dataFrames_eq {p : Params} {chunks : List (List Byte)} (h : ∀ chunk ∈ chunks, chunk.length ≤ 15) :
    dataFrames p chunks =
      chunks.flatMap (fun chunk => [[BitVec.ofNat 8 (0x10 + chunk.length)], chunk]) ++ [[0x03#8]] := by
  rw [dataFrames, List.flatMap_congr fun chunk hmem => bulkFrames_eq p chunk (h chunk hmem)]
  rfl

/-! ## What a WRITE has still to send (R171) -/

/-- The bytes of WBUF from CURSOR to LEN. -/
def pendingPayload (s : State) : List Byte := s.wbuf.readAll s.cursor.toNat (s.args.len.toNat - s.cursor.toNat)

/-- The chunk that starts at CURSOR. -/
def nextPayload (s : State) : List Byte := (pendingPayload s).take 15

@[simp] theorem pendingPayload_length (s : State) :
    (pendingPayload s).length = s.args.len.toNat - s.cursor.toNat := by
  simp [pendingPayload]

theorem nextPayload_length (s : State) : (nextPayload s).length = min 15 (s.args.len.toNat - s.cursor.toNat) := by
  rw [nextPayload, List.length_take, pendingPayload_length]

/-- After a chunk the bytes behind it are pending. -/
theorem pendingPayload_of_advance {s u : State} (hwbuf : u.wbuf = s.wbuf) (hargs : u.args = s.args)
    (hcursor : u.cursor.toNat = s.cursor.toNat + (nextPayload s).length) :
    pendingPayload u = (pendingPayload s).drop 15 := by
  rw [nextPayload_length] at hcursor
  rw [pendingPayload, pendingPayload, Memory.drop_readAll, hwbuf, hargs, hcursor]
  by_cases hlast : s.args.len.toNat - s.cursor.toNat ≤ 15
  · rw [show s.args.len.toNat - s.cursor.toNat - 15 = 0 by omega,
      show s.args.len.toNat - (s.cursor.toNat + min 15 (s.args.len.toNat - s.cursor.toNat)) = 0 by omega]
    rfl
  · rw [show min 15 (s.args.len.toNat - s.cursor.toNat) = 15 by omega, Nat.sub_add_eq]

/-! ## One chunk (R143, R144) -/

/-- The header in flight names the length of the chunk that starts at CURSOR. -/
theorem phaseInstr_header {s : State} (hseq : s.seq = .wHdrTx ∨ s.seq = .wHdrRx)
    (hsize : s.chunkN = writeChunk s.cursor s.args.len) :
    phaseInstr s = some (.bulkHdr (BitVec.ofNat 4 (nextPayload s).length)) := by
  have hname : s.chunkN.setWidth 4 = BitVec.ofNat 4 (nextPayload s).length := by
    apply BitVec.eq_of_toNat_eq
    rw [BitVec.toNat_setWidth, BitVec.toNat_ofNat, hsize, writeChunk_toNat, nextPayload_length]
  obtain hseq | hseq := hseq <;> simp only [phaseInstr, hseq, hname]

/-- The payload in flight is the chunk that starts at CURSOR. -/
theorem phaseInstr_payload {s : State} (hseq : s.seq = .wPayTx ∨ s.seq = .wPayRx)
    (hsize : s.chunkN = writeChunk s.cursor s.args.len) :
    phaseInstr s = some (.bulkPayload (nextPayload s)) := by
  have hbytes : payloadOf s = nextPayload s := by
    rw [payloadOf, nextPayload, pendingPayload, Memory.take_readAll, hsize, writeChunk_toNat]
  obtain hseq | hseq := hseq <;> simp only [phaseInstr, hseq, hbytes]

/-- The state after the BULK_HDR of the chunk that starts at CURSOR (R143). -/
def afterHeader (ack : List Byte) (s : State) : State :=
  { afterExchange .wHdrRx (frameBytes s.params (.bulkHdr (BitVec.ofNat 4 (nextPayload s).length))) ack s with
    chunkN := writeChunk s.cursor s.args.len, seq := .wPayTx }

/-- The state after a BULK_PAYLOAD of `chunk`, at the loop head (R171). -/
def afterPayload (chunk ack : List Byte) (s : State) : State :=
  { afterExchange .wPayRx chunk ack s with cursor := s.cursor + BitVec.ofNat 16 chunk.length }

/-- Two steps send a payload that stays below LEN and receive its acknowledgment. -/
theorem run_of_bulkPayload {n : Nat} {s : State} {chunk ack : List Byte} {frames acks : List (List Byte)}
    {moreS : List TxAnswer} {moreR : List RxAnswer} {o : Out}
    (hdue : ExchangeDue (.bulkPayload chunk) .wPayTx .wPayRx s) (hpos : 1 ≤ chunk.length) (hle : chunk.length ≤ 15)
    (hroom : s.cursor.toNat + chunk.length ≤ s.args.len.toNat) (hack : ack.length = chunk.length)
    (hwell : AnswersWell (chunk :: frames) (ack :: acks) moreS moreR s.link)
    (hrun : Host.Core.run Sys2Proof.core n (nextChunk (afterPayload chunk ack s)) = o) :
    Host.Core.run Sys2Proof.core (n + 2) s = o := by
  obtain ⟨hsends, hrecvs, hempty⟩ := hwell
  obtain ⟨hsend, -⟩ := bulkPayloadExchange chunk hpos hle
  obtain ⟨hsent, -⟩ := hsend s _ _ ⟨hdue.phase, hdue.held, hdue.free, hsends⟩ hroom
  refine run_of_exec hdue.noReset hdue.running hdue.send (hsent (by simp [boundTx])) ?_
  refine run_of_exec hdue.noReset hdue.running (hdue.receive _ _) ?_ hrun
  have hleads := ackLeadsTo_of_receiveAck (by omega) (hle.trans (by decide)) (exec_bulkPayload_receive chunk)
  refine Eq.trans (hleads _ _ _ ack.length ⟨rfl, hdue.held, ?_, hrecvs⟩ rfl hack.ge (by simp [hack])) ?_
  · have hfit : chunk.length < 2 ^ 17 := hle.trans_lt (by decide)
    simpa using (Nat.mod_eq_of_lt hfit).ge
  · simp [afterBytes, afterPayload, afterExchange, linkReceived, linkSent, hempty, hsends, hrecvs, ← hack,
      exchangeCalls]

/-- The state after the header and the payload of the chunk that starts at CURSOR, at the loop head. -/
def afterChunk (ackHdr ackPay : List Byte) (s : State) : State :=
  afterPayload (nextPayload s) ackPay (afterHeader ackHdr s)

theorem pendingPayload_afterChunk {ackHdr ackPay : List Byte} {s : State}
    (hmore : s.cursor.toNat < s.args.len.toNat) :
    pendingPayload (afterChunk ackHdr ackPay s) = (pendingPayload s).drop 15 := by
  have hroom : s.cursor.toNat + (nextPayload s).length ≤ s.args.len.toNat := by
    rw [nextPayload_length]
    omega
  exact pendingPayload_of_advance rfl rfl (advance_toNat hroom)

section Chunk

variable {n : Nat} {s : State} {ack : List Byte} {frames acks : List (List Byte)} {moreS : List TxAnswer}
  {moreR : List RxAnswer} {rbuf : Memory} {calls : List Call}

theorem CompletesOk.of_header (h : InTransaction s) (hmore : s.cursor.toNat < s.args.len.toNat)
    (hack : ack.length = 1)
    (hwell : AnswersWell (frameBytes s.params (.bulkHdr (BitVec.ofNat 4 (nextPayload s).length)) :: frames)
      (ack :: acks) moreS moreR s.link)
    (hrest : CompletesOk n rbuf calls (afterHeader ack s)) :
    CompletesOk (n + 2) rbuf
      (exchangeCalls (frameBytes s.params (.bulkHdr (BitVec.ofNat 4 (nextPayload s).length))) ack ++ calls)
      (nextChunk s) := by
  have hloop : nextChunk s = { s with chunkN := writeChunk s.cursor s.args.len, seq := .wHdrTx } :=
    if_pos (decide_eq_true hmore)
  have hnext : InTransaction { s with chunkN := writeChunk s.cursor s.args.len, seq := .wHdrTx } :=
    ⟨h.noReset, h.running, h.held, h.free⟩
  obtain ⟨-, hsend, -, hleads, -⟩ := bulkHeaderExchange (BitVec.ofNat 4 (nextPayload s).length)
  rw [hloop]
  exact .of_exchange hsend hleads hack (by decide)
    (hnext.exchangeDue rfl (phaseInstr_header (.inl rfl) rfl) fun _ _ => phaseInstr_header (.inr rfl) rfl) hwell
    (t := afterHeader ack s) rfl {} hrest

theorem CompletesOk.of_payload (h : InTransaction s) (hseq : s.seq = .wPayTx)
    (hsize : s.chunkN = writeChunk s.cursor s.args.len) (hmore : s.cursor.toNat < s.args.len.toNat)
    (hack : ack.length = (nextPayload s).length)
    (hwell : AnswersWell (nextPayload s :: frames) (ack :: acks) moreS moreR s.link)
    (hrest : CompletesOk n rbuf calls (nextChunk (afterPayload (nextPayload s) ack s))) :
    CompletesOk (n + 2) rbuf (exchangeCalls (nextPayload s) ack ++ calls) s := by
  have hlength := nextPayload_length s
  refine hrest.before ⟨nextChunk_conn _, nextChunk_desync _, by rw [nextChunk_link]; rfl⟩ fun _ => ?_
  exact run_of_bulkPayload
    (h.exchangeDue hseq (phaseInstr_payload (.inl hseq) hsize) fun _ _ => phaseInstr_payload (.inr rfl) hsize)
    (by omega) (by omega) (by omega) hack hwell

end Chunk

/-! ## The run -/

/-- STOP and the completion, once everything is sent. -/
theorem completesOk_of_sent {s : State} {ack : List Byte} {moreS : List TxAnswer} {moreR : List RxAnswer}
    (h : InTransaction s) (hsent : ¬s.cursor.toNat < s.args.len.toNat) (hack : ack.length = 1)
    (hwell : AnswersWell [frameBytes s.params .stop] [ack] moreS moreR s.link) :
    CompletesOk 3 s.rbuf (exchangeCalls (frameBytes s.params .stop) ack) (nextChunk s) := by
  have hstop : InTransaction { s with seq := .wStopTx } := ⟨h.noReset, h.running, h.held, h.free⟩
  have hdone : InTransaction { afterExchange .wStopRx (frameBytes s.params .stop) ack s with seq := .wDone .ok } :=
    ⟨h.noReset, h.running, h.held, rfl⟩
  obtain ⟨-, hsend, -, hleads, -⟩ := stopExchange
  rw [nextChunk_eq, if_neg hsent]
  exact .of_exchange hsend hleads hack (by decide) (hstop.exchangeDue rfl rfl fun _ _ => rfl) hwell rfl {}
    (hdone.completesOk rfl (exec_write_done h.running (.inl rfl)))

/-- The data phase of a PerByte WRITE, by the chunks still to be sent. -/
theorem completesOk_of_dataFrames (fuel : Nat) {s : State} {frames acks : List (List Byte)} {moreS : List TxAnswer}
    {moreR : List RxAnswer} (h : InTransaction s) (hfuel : (pendingPayload s).length ≤ fuel)
    (hframes : frames = dataFrames s.params (chunksOf fuel (pendingPayload s)))
    (hacks : acks.map List.length = frames.map List.length) (hwell : AnswersWell frames acks moreS moreR s.link) :
    CompletesOk (2 * frames.length + 1) s.rbuf (List.zipWith exchangeCalls frames acks).flatten (nextChunk s) := by
  induction fuel generalizing s frames acks with
  | zero =>
    subst hframes
    obtain ⟨ack, rfl, hack⟩ := List.map_eq_singleton_iff.mp hacks
    rw [pendingPayload_length] at hfuel
    exact completesOk_of_sent h (by omega) hack hwell
  | succ fuel ih =>
    by_cases hmore : s.cursor.toNat < s.args.len.toNat
    · have hpending : pendingPayload s ≠ [] := by
        rw [← List.length_pos_iff, pendingPayload_length]
        omega
      rw [chunksOf_succ hpending, dataFrames_cons] at hframes
      subst hframes
      obtain ⟨ackHdr, _, rfl, hackHdr, hacks⟩ := List.map_eq_cons_iff.mp hacks
      obtain ⟨ackPay, acks, rfl, hackPay, hacks⟩ := List.map_eq_cons_iff.mp hacks
      have hheader : InTransaction (afterHeader ackHdr s) := ⟨h.noReset, h.running, h.held, rfl⟩
      have hwellPay := hwell.after .wHdrRx
      have hdrop := pendingPayload_afterChunk (ackHdr := ackHdr) (ackPay := ackPay) hmore
      have hrest := ih (s := afterChunk ackHdr ackPay s) ⟨h.noReset, h.running, h.held, rfl⟩
        (by rw [hdrop, List.length_drop]; omega) (by rw [hdrop]; rfl) hacks (hwellPay.after .wPayRx)
      exact .of_header h hmore hackHdr hwell (.of_payload hheader rfl rfl hmore hackPay hwellPay hrest)
    · have hpending : pendingPayload s = [] := by
        rw [← List.length_eq_zero_iff, pendingPayload_length]
        omega
      rw [hpending, chunksOf_nil] at hframes
      subst hframes
      obtain ⟨ack, rfl, hack⟩ := List.map_eq_singleton_iff.mp hacks
      exact completesOk_of_sent h hmore hack hwell

theorem writeFrames_eq (p : Params) (q : Operands) (wbuf : Memory) :
    writeFrames p q wbuf = frameBytes p (addrSelectOf q) ::
      dataFrames p (chunksOf q.len.toNat (wbuf.readAll 0 q.len.toNat)) := by
  simp [writeFrames, dataFrames]

theorem frameBytes_addrSelectOf (p : Params) (q : Operands) :
    frameBytes p (addrSelectOf q) = [0x02#8, p.addrSelectTag, q.devId.setWidth 8 <<< 1, q.regAddr] := by
  obtain ⟨hbytes, -⟩ := addrSelectExchange q.devId q.regAddr
  exact hbytes p

section Frames

variable (p : Params) (q : Operands) (wbuf : Memory)

theorem writeFrames_length : (writeFrames p q wbuf).length = 2 + 2 * ((q.len.toNat + 14) / 15) := by
  rw [writeFrames_eq, List.length_cons, dataFrames_length, chunksOf_length _ _ (Memory.readAll_length _ _ _).le,
    Memory.readAll_length]
  omega

theorem writeFrames_flatten_length :
    (writeFrames p q wbuf).flatten.length = 4 + (q.len.toNat + 14) / 15 + q.len.toNat + 1 := by
  have hread : (wbuf.readAll 0 q.len.toNat).length = q.len.toNat := Memory.readAll_length _ _ _
  obtain ⟨-, -, hflat⟩ := chunksOf_spec q.len.toNat _ hread.le
  rw [writeFrames_eq, List.flatten_cons, List.length_append, dataFrames_flatten_length,
    chunksOf_length _ _ hread.le, hflat, hread, frameBytes_addrSelectOf]
  simp only [List.length_cons, List.length_nil]
  omega

/-- The payloads of the frames are WBUF's bytes, cut at every fifteenth (R41, R48). -/
theorem writeFrames_chunks :
    ∃ chunks : List (List Byte),
      writeFrames p q wbuf =
        [0x02#8, p.addrSelectTag, q.devId.setWidth 8 <<< 1, q.regAddr] ::
          (chunks.flatMap (fun chunk => [[BitVec.ofNat 8 (0x10 + chunk.length)], chunk]) ++ [[0x03#8]]) ∧
      (∀ chunk ∈ chunks, 1 ≤ chunk.length ∧ chunk.length ≤ 15) ∧ (∀ chunk ∈ chunks.dropLast, chunk.length = 15) ∧
      chunks.flatten.length = q.len.toNat ∧ ∀ k < q.len.toNat, chunks.flatten[k]? = some (wbuf.read k) := by
  have hread : (wbuf.readAll 0 q.len.toNat).length = q.len.toNat := Memory.readAll_length _ _ _
  obtain ⟨hsize, hfull, hflat⟩ := chunksOf_spec q.len.toNat _ hread.le
  refine ⟨_, ?_, hsize, hfull, by rw [hflat, hread], fun k hk => ?_⟩
  · rw [writeFrames_eq, frameBytes_addrSelectOf, dataFrames_eq fun chunk hmem => (hsize chunk hmem).2]
  · rw [hflat, Memory.readAll_getElem? _ _ _ _ hk, Nat.zero_add]

end Frames

/-- A PerByte WRITE that is answered well: acceptance, the check, ADDR_SELECT and the data phase from CURSOR 0. -/
theorem completesOk_of_write {q : Operands} {s : State} {acks : List (List Byte)} {moreS : List TxAnswer}
    {moreR : List RxAnswer} (hready : ReadyFor { op := 2, args := q } s) (hconn : s.conn = .i2cMode)
    (hstrat : s.strat = .perByte) (hshort : q.len.toNat ≤ 126)
    (hacks : acks.map List.length = (writeFrames s.params q s.wbuf).map List.length)
    (hwell : AnswersWell (writeFrames s.params q s.wbuf) acks moreS moreR s.link) :
    CompletesOk (3 + 2 * (writeFrames s.params q s.wbuf).length) s.rbuf
      (List.zipWith exchangeCalls (writeFrames s.params q s.wbuf) acks).flatten s := by
  rw [writeFrames_eq] at hacks hwell ⊢
  obtain ⟨ack, acks, rfl, hack, hacks⟩ := List.map_eq_cons_iff.mp hacks
  have hheld : s.conn ≠ .closed := by rw [hconn]; decide
  have hselect : InTransaction (accept 2 q .wAddrTx s) := ⟨hready.noReset, rfl, hheld, hready.settled⟩
  obtain ⟨-, ⟨hsend, -, hleads, -⟩, -⟩ := addrSelectExchange q.devId q.regAddr
  simp only [← nextChunk_start] at hleads
  rw [List.length_cons, show ∀ n, 3 + 2 * (n + 1) = 2 * n + 1 + 2 + 2 from fun n => by omega]
  exact
    .of_started hready (exec_write_accept (first := .wCheck) hready.idle (by rw [hstrat]; rfl)) rfl
      (exec_write_check (s := accept 2 q .wCheck s) rfl rfl (writeCheck_of_short hconn hshort)) rfl rfl rfl <|
    .of_exchange hsend hleads hack (by decide) (hselect.exchangeDue rfl rfl fun _ _ => rfl) hwell rfl
      ⟨nextChunk_conn _, nextChunk_desync _, by rw [nextChunk_link]; rfl⟩ <|
    completesOk_of_dataFrames q.len.toNat ⟨hready.noReset, rfl, hheld, rfl⟩ (Memory.readAll_length _ _ _).le rfl hacks
      (hwell.after (s := accept 2 q .wAddrTx s) .wAddrRx)

/-- Settles O57: what the frames are, and the run that sends them. -/
theorem perByteWriteRuns : Obligations.PerByteWriteRuns := by
  intro q s acks moreS moreR hready hconn hstrat hshort hacks hwell
  obtain ⟨t, hrun, hstatus, hbusy, htconn, hrest⟩ := completesOk_of_write hready hconn hstrat hshort hacks hwell
  exact ⟨writeFrames_length _ q _, writeFrames_flatten_length _ q _, writeFrames_chunks _ q _,
    t, hrun, hstatus, hbusy, htconn.trans hconn, hrest⟩

end Sys2Proof.Machine
end

section
/-!
PROOFS. Combined transactions from request to completion (43_bridge_ops R178, R179, R181): one WTR as two steps, its input
phase part by part, and the runs of WRITE and READ.
-/
namespace Sys2Proof.Machine

/-! ## One WTR up to its status byte (R151) -/

section Wtr

variable {n : Nat} {r : Half} {out : List Byte} {last : Bool} {st : Byte} {s t : State} {frames acks : List (List Byte)}
  {moreS : List TxAnswer} {moreR : List RxAnswer}

/-- The state in which WTR checks its status byte `st`: the input is still owed (R99). -/
def afterStatus (last : Bool) (r : Half) (frame : List Byte) (st : Byte) (s : State) : State :=
  { afterExchange (.xStatRx last) frame [st] s with await := BitVec.ofNat 17 r.toNat }

theorem exec_wtr_of_status {rest : List RxAnswer}
    (hready : ReadyToReceive (.xStatRx last) 1 ⟨[st], .count 1⟩ rest s) (hempty : s.link.rx = []) :
    exec (.wtr r out) s = checkStatus last r
      { s with abuf := [st], await := s.await - 1, link := linkReceived 1 (.bytes [st]) [] rest s } := by
  have hreceive := receive_of_stream (d := [st]) (left := []) hready (by decide) (by decide) rfl (by simp [hempty]) rfl
  rw [exec_wtr_status r out last s hready.phase, receiveExactly, hreceive]
  rfl

/-- Of `1 + r` bytes the status byte is one. -/
theorem await_after_status (r : Half) :
    (BitVec.ofNat 17 (1 + r.toNat)).toNat = 1 + r.toNat ∧
      BitVec.ofNat 17 (1 + r.toNat) - 1 = BitVec.ofNat 17 r.toNat := by
  refine ⟨?_, ?_⟩
  · rw [BitVec.toNat_ofNat]
    omega
  · rw [BitVec.ofNat_add]
    exact add_sub_cancel_left _ _

/-- Two steps send a WTR and receive its status byte; the check tells what follows. -/
theorem run_of_wtr {o : Out} (hdue : ExchangeDue (.wtr r out) (.xCmdTx last) (.xStatRx last) s)
    (hwell : AnswersWell (frameBytes s.params (.wtr r out) :: frames) ([st] :: acks) moreS moreR s.link)
    (hcheck : checkStatus last r (afterStatus last r (frameBytes s.params (.wtr r out)) st s) = .next t)
    (hrun : Host.Core.run Sys2Proof.core n t = o) : Host.Core.run Sys2Proof.core (n + 2) s = o := by
  obtain ⟨hsends, hrecvs, hempty⟩ := hwell
  obtain ⟨-, hsend, -⟩ := wtrSendsAndChecksStatus r out last
  obtain ⟨howed, hleft⟩ := await_after_status r
  refine run_of_exec hdue.noReset hdue.running hdue.send
    (hsend s _ _ ⟨hdue.phase, hdue.held, hdue.free, hsends⟩ (by simp [boundTx])) ?_
  refine run_of_exec hdue.noReset hdue.running (hdue.receive _ _) ?_ hrun
  refine Eq.trans (exec_wtr_of_status ⟨rfl, hdue.held, by rw [howed]; omega, hrecvs⟩ hempty) ?_
  rw [← hcheck, afterStatus, ← hleft]
  simp [afterExchange, linkReceived, linkSent, hsends, hrecvs, exchangeCalls]

theorem checkStatus_of_zero (habuf : s.abuf = [0]) :
    checkStatus last r s = .next { s with await := 0, seq := .raised .protocolMismatchError } :=
  if_neg (by simp [ackStatusOk, habuf])

theorem checkStatus_of_ne (habuf : s.abuf = [st]) (hst : st ≠ 0) :
    checkStatus last r s = .next (nextInput last { s with remain := r }) :=
  if_pos (by simpa [ackStatusOk, habuf] using hst)

/-- A WTR whose status byte is not zero comes before whatever its input phase leads to. -/
theorem CompletesOk.of_wtr {rbuf : Memory} {calls : List Call}
    (hdue : ExchangeDue (.wtr r out) (.xCmdTx last) (.xStatRx last) s)
    (hwell : AnswersWell (frameBytes s.params (.wtr r out) :: frames) ([st] :: acks) moreS moreR s.link) (hst : st ≠ 0)
    (hrest : CompletesOk n rbuf calls
      (nextInput last { afterStatus last r (frameBytes s.params (.wtr r out)) st s with remain := r })) :
    CompletesOk (n + 2) rbuf (exchangeCalls (frameBytes s.params (.wtr r out)) [st] ++ calls) s :=
  hrest.before ⟨nextInput_conn _ _, nextInput_desync _ _, by rw [nextInput_link]; rfl⟩ fun _ =>
    run_of_wtr hdue hwell (checkStatus_of_ne rfl hst)

end Wtr

/-! ## A Combined WRITE (R178) -/

/-- An accepted Combined WRITE or READ that has passed its check, about to send its first frame. -/
def combinedStarted (code : BitVec 3) (q : Operands) (last : Bool) (s : State) : State :=
  { accept code q .xCheck s with cursor := 0, seq := .xCmdTx last }

@[simp] theorem combinedStarted_params (code : BitVec 3) (q : Operands) (last : Bool) (s : State) :
    (combinedStarted code q last s).params = s.params := rfl

theorem exchangeDue_combinedStarted {code : BitVec 3} {q : Operands} {last : Bool} {s : State} {i : Instr}
    (hready : ReadyFor { op := code, args := q } s) (hconn : s.conn = .i2cMode)
    (hframe : ∀ u : State, u.op = code → u.args = q → u.wbuf = s.wbuf → wtrOf last u = i) :
    ExchangeDue i (.xCmdTx last) (.xStatRx last) (combinedStarted code q last s) :=
  ⟨hready.noReset, rfl, rfl, by simp [combinedStarted, hconn], hready.settled, congrArg some (hframe _ rfl rfl rfl),
    fun _ _ => congrArg some (hframe _ rfl rfl rfl)⟩

theorem wtrOf_write {last : Bool} {q : Operands} {wbuf : Memory} {u : State} (hop : u.op = 2) (hargs : u.args = q)
    (hwbuf : u.wbuf = wbuf) : wtrOf last u = wtrOfWrite q wbuf := by
  rw [wtrOf, if_pos hop, hargs, hwbuf]

/-- The one frame of a Combined WRITE, written out. -/
theorem frameBytes_wtrOfWrite (p : Params) {q : Operands} (wbuf : Memory) (hshort : q.len.toNat ≤ 126) :
    ∃ (wh wl : Byte) (payload : List Byte),
      frameBytes p (wtrOfWrite q wbuf) =
        [p.wtrCmd, wh, wl, 0x00#8, 0x00#8, q.devId.setWidth 8 <<< 1, q.regAddr] ++ payload ∧
      256 * wh.toNat + wl.toNat = q.len.toNat + 2 ∧ payload.length = q.len.toNat ∧
      ∀ k < q.len.toNat, payload[k]? = some (wbuf.read k) := by
  obtain ⟨wh, wl, rh, rl, hbytes, hw, hr⟩ :=
    frameBytes_wtr p 0 (addressByte q.devId .write :: q.regAddr :: wbuf.readAll 0 q.len.toNat)
  have hzero : 0 = 256 * rh.toNat + rl.toNat := hr
  obtain rfl : rh = 0x00#8 := BitVec.eq_of_toNat_eq (show rh.toNat = 0 by omega)
  obtain rfl : rl = 0x00#8 := BitVec.eq_of_toNat_eq (show rl.toNat = 0 by omega)
  simp only [List.length_cons, Memory.readAll_length] at hw
  refine ⟨wh, wl, wbuf.readAll 0 q.len.toNat, ?_, (hw (by omega)).symm, Memory.readAll_length _ _ _, fun k hk => ?_⟩
  · rw [wtrOfWrite, hbytes]
    simp [addressByte, directionBit]
  · rw [Memory.readAll_getElem? _ _ _ _ hk, Nat.zero_add]

theorem exec_write_raised {q : Operands} {s : State} {e : Status} (hb : s.busy = true) (hseq : s.seq = .raised e) :
    exec (.write q) s = .next (abortTransaction e s) := by
  obtain ⟨-, -, hraised⟩ := transactionEnds q s e hb
  exact (hraised hseq).1

/-- Settles O59: one WTR without input, then the completion or the abort phase, by the status byte. -/
theorem combinedWriteRuns : Obligations.CombinedWriteRuns := by
  intro q s st moreS moreR hready hconn hstrat hshort hwell
  refine ⟨frameBytes_wtrOfWrite _ _ hshort, ?_⟩
  have hheld : s.conn ≠ .closed := by rw [hconn]; decide
  have haccept : exec (.write q) s = .next (accept 2 q .xCheck s) :=
    exec_write_accept hready.idle (by rw [hstrat]; rfl)
  have hcheck : exec (.write q) (accept 2 q .xCheck s) = .next (combinedStarted 2 q true s) :=
    exec_write_combinedCheck (s := accept 2 q .xCheck s) rfl rfl (writeCheck_of_short hconn hshort)
  have hdue : ExchangeDue (wtrOfWrite q s.wbuf) (.xCmdTx true) (.xStatRx true) (combinedStarted 2 q true s) :=
    exchangeDue_combinedStarted hready hconn fun _ => wtrOf_write
  by_cases hst : st = 0
  · subst hst
    refine ⟨_, run_of_started hready haccept rfl hcheck <| run_of_wtr hdue hwell (checkStatus_of_zero rfl) <|
      run_of_exec hready.noReset rfl rfl (exec_write_raised rfl rfl) rfl, rfl, hconn, ?_, fun _ => ⟨rfl, rfl⟩, rfl⟩
    exact fun hne => absurd rfl hne
  · have hdone : InTransaction (nextInput true { afterStatus true 0 (frameBytes s.params (wtrOfWrite q s.wbuf)) st
        (combinedStarted 2 q true s) with remain := 0 }) := ⟨hready.noReset, rfl, hheld, rfl⟩
    have hok : CompletesOk 5 s.rbuf (exchangeCalls (frameBytes s.params (wtrOfWrite q s.wbuf)) [st] ++ []) s :=
      .of_started hready haccept rfl hcheck rfl rfl rfl <| .of_wtr hdue hwell hst <|
        hdone.completesOk rfl (exec_write_done rfl (.inr rfl))
    obtain ⟨t, hrun, hstatus, hbusy, htconn, hdesync, -, hwire⟩ := hok
    rw [List.append_nil] at hwire
    exact ⟨t, hrun, hbusy, htconn.trans hconn, fun _ => ⟨hstatus, hdesync⟩, fun hzero => absurd hzero hst, hwire⟩

end Sys2Proof.Machine
end

section
/-!
PROOFS. A Combined READ from request to completion (43_bridge_ops R179, R181): its input arrives in any parts.
-/
namespace Sys2Proof.Machine

theorem Memory.writeAll_append (m : Memory) (i : Nat) (d e : List Byte) :
    m.writeAll i (d ++ e) = (m.writeAll i d).writeAll (i + d.length) e := by
  induction d generalizing m i with
  | nil => rfl
  | cons b d ih => simp [Memory.writeAll, ih, Nat.add_assoc, Nat.add_comm 1]

/-! ## The input phase (R151, R181) -/

/-- The receives of an input phase: each asks for what remains, but at most 16 bytes, and returns one part. -/
def inputCalls : List (List Byte) → List Call
  | [] => []
  | part :: parts => .rx (min 16 (part :: parts).flatten.length) (.bytes part) :: inputCalls parts

/-- A receive sends nothing. -/
theorem inputCalls_acceptedBytes (parts : List (List Byte)) : (inputCalls parts).flatMap acceptedBytes = [] := by
  induction parts with
  | nil => rfl
  | cons part parts ih => simp [inputCalls, acceptedBytes, ih]

/-- A READ's data frame is owed the bytes of `parts`, which the environment will supply part by part (R99, R182). -/
structure InputDue (parts : List (List Byte)) (moreR : List RxAnswer) (s : State) : Prop where
  noReset : s.resetReq = none
  running : s.busy = true
  held    : s.conn ≠ .closed
  reading : s.op = 3
  owed    : s.await.toNat = parts.flatten.length
  remain  : s.remain.toNat = parts.flatten.length
  room    : s.cursor.toNat + parts.flatten.length = s.args.len.toNat
  recvs   : s.link.recvs = parts.map (fun a => RxAnswer.mk a (.count a.length)) ++ moreR
  rx      : s.link.rx = []

/-- The state after a part of the input is stored, at the loop head (R151). -/
def afterPart (part : List Byte) (s : State) : State :=
  { s with
    seq := .xDataRx true, chunkN := inputChunk s.remain, abuf := part,
    await := s.await - BitVec.ofNat 17 part.length, rbuf := s.rbuf.writeAll s.cursor.toNat part,
    cursor := s.cursor + BitVec.ofNat 16 part.length, remain := BitVec.ofNat 16 (s.remain.toNat - part.length),
    link := linkReceived (inputChunk s.remain).toNat (.bytes part) [] s.link.recvs.tail s }

section Part

variable {part : List Byte} {parts : List (List Byte)} {moreR : List RxAnswer} {s : State}

theorem InputDue.cursor_afterPart (h : InputDue (part :: parts) moreR s) :
    (afterPart part s).cursor.toNat = s.cursor.toNat + part.length := by
  have hroom := h.room
  rw [List.flatten_cons, List.length_append] at hroom
  exact advance_toNat (len := s.args.len) (by omega)

theorem InputDue.after (h : InputDue (part :: parts) moreR s) : InputDue parts moreR (afterPart part s) := by
  have hcursor := h.cursor_afterPart
  obtain ⟨hreset, hrunning, hheld, hreading, howed, hremain, hroom, hrecvs, -⟩ := h
  rw [List.flatten_cons, List.length_append] at howed hremain hroom
  have hfit := s.args.len.isLt
  refine ⟨hreset, hrunning, hheld, hreading, ?_, ?_, ?_, by simp [afterPart, linkReceived, hrecvs], rfl⟩
  · simp only [afterPart, BitVec.toNat_sub, BitVec.toNat_ofNat]
    omega
  · simp only [afterPart, BitVec.toNat_ofNat]
    omega
  · rw [hcursor, Nat.add_assoc]
    exact hroom

/-- One step receives and stores one part. -/
theorem run_of_part {n : Nat} {o : Out} (h : InputDue (part :: parts) moreR s) (hpos : 1 ≤ part.length)
    (hle : part.length ≤ 16) (hrun : Host.Core.run Sys2Proof.core n (nextInput true (afterPart part s)) = o) :
    Host.Core.run Sys2Proof.core (n + 1) (nextInput true s) = o := by
  obtain ⟨hreset, hrunning, hheld, hreading, howed, hremain, hroom, hrecvs, hrx⟩ := h
  rw [List.flatten_cons, List.length_append] at howed hremain hroom
  have hchunk : (inputChunk s.remain).toNat = min 16 s.remain.toNat := inputChunk_toNat s.remain
  have hasked : part.length ≤ (inputChunk s.remain).toNat ∧ (inputChunk s.remain).toNat ≤ 16 ∧
      (inputChunk s.remain).toNat ≤ s.await.toNat := by omega
  obtain ⟨hpart, hbound, howes⟩ := hasked
  have hmore : s.remain ≠ 0 := by
    intro hzero
    rw [hzero] at hremain
    change 0 = _ at hremain
    omega
  have hloop : nextInput true s = { s with chunkN := inputChunk s.remain, seq := .xDataRx true } := if_neg hmore
  have hdue : phaseInstr { s with chunkN := inputChunk s.remain, seq := .xDataRx true } =
      some (wtrOfReadData s.args) := by
    simp [phaseInstr, wtrOf, hreading]
  rw [hloop]
  refine run_of_exec hreset hrunning hdue ?_ hrun
  obtain ⟨hstore, -⟩ := wtrInputMakesProgress s.args.len [addressByte s.args.devId .read] true
    { s with chunkN := inputChunk s.remain, seq := .xDataRx true } ⟨part, .count part.length⟩
    (parts.map (fun a => RxAnswer.mk a (.count a.length)) ++ moreR)
    ⟨rfl, hheld, howes, hrecvs⟩ (hpos.trans hpart) hbound
  obtain ⟨hexec, -⟩ := hstore part.length part [] rfl (Nat.min_eq_left hpart).symm (List.length_pos_iff.mp hpos)
    (by simp [hrx]) (show s.cursor.toNat + part.length ≤ s.args.len.toNat by omega)
    (show part.length ≤ s.remain.toNat by omega)
  refine Eq.trans hexec ?_
  rw [afterPart, hrecvs]
  rfl

end Part

/-- The input phase of a Combined READ and its completion, by the parts still to come. -/
theorem completesOk_of_input (parts : List (List Byte)) {moreR : List RxAnswer} {s : State}
    (h : InputDue parts moreR s) (hsize : ∀ part ∈ parts, 1 ≤ part.length ∧ part.length ≤ 16) :
    CompletesOk (parts.length + 1) (s.rbuf.writeAll s.cursor.toNat parts.flatten) (inputCalls parts)
      (nextInput true s) := by
  induction parts generalizing s with
  | nil =>
    have hdone : InTransaction { s with seq := .xDone .ok } :=
      ⟨h.noReset, h.running, h.held, BitVec.eq_of_toNat_eq h.owed⟩
    have hloop : nextInput true s = { s with seq := .xDone .ok } := if_pos (BitVec.eq_of_toNat_eq h.remain)
    rw [hloop]
    have hdue : phaseInstr { s with seq := .xDone .ok } = some (.read s.args) := by
      simp [phaseInstr, transactionOf, h.reading]
    exact hdone.completesOk hdue (exec_read_done h.running (.inr rfl))
  | cons part parts ih =>
    obtain ⟨⟨hpos, hle⟩, hsize⟩ := List.forall_mem_cons.mp hsize
    have hrest := ih h.after hsize
    rw [h.cursor_afterPart] at hrest
    rw [List.flatten_cons, Memory.writeAll_append]
    have hasked : (inputChunk s.remain).toNat = min 16 (part :: parts).flatten.length := by
      rw [inputChunk_toNat, h.remain]
    refine hrest.before (earlier := [.rx (min 16 (part :: parts).flatten.length) (.bytes part)]) ?_
      fun _ => run_of_part h hpos hle
    refine ⟨by simp [afterPart], by simp [afterPart], ?_⟩
    rw [nextInput_link, nextInput_link, ← hasked]
    rfl

/-! ## The run -/

/-- A Combined READ that has set the register pointer, with status byte `st`, about to send its data frame (R179). -/
def pointerSet (q : Operands) (st : Byte) (s : State) : State :=
  { afterStatus false 0 (frameBytes s.params (wtrOfReadPointer q)) st (combinedStarted 3 q false s) with
    remain := 0, seq := .xCmdTx true }

@[simp] theorem pointerSet_params (q : Operands) (st : Byte) (s : State) :
    (pointerSet q st s).params = s.params := rfl

@[simp] theorem pointerSet_rbuf (q : Operands) (st : Byte) (s : State) : (pointerSet q st s).rbuf = s.rbuf := rfl

@[simp] theorem pointerSet_cursor (q : Operands) (st : Byte) (s : State) : (pointerSet q st s).cursor = 0 := rfl

/-- A READ with its data frame acknowledged by status byte `st`, at the head of the input loop. -/
def inputStarted (q : Operands) (st : Byte) (s : State) : State :=
  { afterStatus true q.len (frameBytes s.params (wtrOfReadData q)) st s with remain := q.len }

@[simp] theorem inputStarted_rbuf (q : Operands) (st : Byte) (s : State) : (inputStarted q st s).rbuf = s.rbuf := rfl

@[simp] theorem inputStarted_cursor (q : Operands) (st : Byte) (s : State) :
    (inputStarted q st s).cursor = s.cursor := rfl

theorem exchangeDue_pointerSet {q : Operands} {st : Byte} {s : State} (hready : ReadyFor { op := 3, args := q } s)
    (hheld : s.conn ≠ .closed) :
    ExchangeDue (wtrOfReadData q) (.xCmdTx true) (.xStatRx true) (pointerSet q st s) :=
  ⟨hready.noReset, rfl, rfl, hheld, rfl, rfl, fun _ _ => rfl⟩

theorem inputDue_inputStarted {q : Operands} {st : Byte} {s : State} {parts : List (List Byte)}
    {moreS : List TxAnswer} {moreR : List RxAnswer}
    (hdue : ExchangeDue (wtrOfReadData q) (.xCmdTx true) (.xStatRx true) s) (hop : s.op = 3) (hargs : s.args = q)
    (hcursor : s.cursor = 0) (hlen : parts.flatten.length = q.len.toNat)
    (hwell : AnswersWell [frameBytes s.params (wtrOfReadData q)] ([st] :: parts) moreS moreR s.link) :
    InputDue parts moreR (inputStarted q st s) where
  noReset := hdue.noReset
  running := hdue.running
  held := hdue.held
  reading := hop
  owed := by
    have hfit : q.len.toNat < 2 ^ 17 := q.len.isLt.trans (by decide)
    change (BitVec.ofNat 17 q.len.toNat).toNat = _
    rw [hlen, BitVec.toNat_ofNat, Nat.mod_eq_of_lt hfit]
  remain := hlen.symm
  room := by
    change s.cursor.toNat + _ = s.args.len.toNat
    rw [hcursor, hargs, hlen]
    exact Nat.zero_add _
  recvs := (hwell.after (.xStatRx true)).recvs
  rx := rfl

/-- Settles O60: acceptance, the check, the frame that sets the register pointer, and the frame with the input phase. -/
theorem combinedReadRuns : Obligations.CombinedReadRuns := by
  intro q s st1 st2 parts moreS moreR hready hconn hstrat hst1 hst2 hsize hlen hwell
  have hheld : s.conn ≠ .closed := by rw [hconn]; decide
  have hpointer : ExchangeDue (wtrOfReadPointer q) (.xCmdTx false) (.xStatRx false) (combinedStarted 3 q false s) :=
    exchangeDue_combinedStarted hready hconn fun u hop hargs _ => by simp [wtrOf, hop, hargs]
  have hdata := exchangeDue_pointerSet (st := st1) hready hheld
  have hcheck : exec (.read q) (accept 3 q .xCheck s) = .next (combinedStarted 3 q false s) :=
    exec_read_combinedCheck (s := accept 3 q .xCheck s) rfl rfl (readCheck_of_i2cMode hconn)
  have hwellData : AnswersWell [frameBytes s.params (wtrOfReadData q)] ([st2] :: parts) moreS moreR
      (pointerSet q st1 s).link := hwell.after (s := combinedStarted 3 q false s) (.xStatRx false)
  have hinput := completesOk_of_input parts (inputDue_inputStarted hdata rfl rfl rfl hlen hwellData) hsize
  have hsecond := hinput.of_wtr hdata hwellData hst2
  rw [pointerSet_params, inputStarted_rbuf, pointerSet_rbuf, inputStarted_cursor, pointerSet_cursor] at hsecond
  have hfirst := CompletesOk.of_wtr hpointer hwell hst1 hsecond
  have hok := CompletesOk.of_started hready (exec_read_accept hready.idle (by rw [hstrat]; rfl)) rfl hcheck rfl rfl rfl
    hfirst
  obtain ⟨t, hrun, hstatus, hbusy, htconn, hdesync, hrbuf, hwire⟩ := hok
  have hstored : Stored s.rbuf t.rbuf 0 parts.flatten := by
    rw [hrbuf]
    exact stored_writeAll _ _ _
  refine ⟨t, ?_, hstatus, hbusy, htconn.trans hconn, hdesync, hrbuf, hstored, ?_⟩
  · rw [← hrun, show 7 + parts.length = parts.length + 1 + 2 + 2 + 2 by omega]
  · simp [State.txStream, hwire, exchangeCalls, acceptedBytes, inputCalls_acceptedBytes, wtrOfReadPointer, wtrOfReadData]

end Sys2Proof.Machine
end

section
/-!
PROOFS. Which result a step can write to STATUS (40_transport_arbiter R104): the one its phase holds. A legal state holds
a `TimeoutError` only when there is a timeout (60_exceptions R207, R218).
-/
namespace Sys2Proof.Machine

/-! ## The result a phase completes with (R104, R124, R125, R186, R213) -/

/-- The result the completion of a phase reports; no other phase completes. -/
def resultOf : Seq → Option Status
  | .iDone | .dDone => some .ok
  | .aDone r | .cDone r | .wDone r | .rDone r | .xDone r | .raised r => some r
  | _ => none

/-- STATUS stays, or becomes the result of the phase that completes. -/
def ReportsResult (s t : State) : Prop := t.status = s.status ∨ resultOf s.seq = some t.status

theorem ReportsResult.of_phase {s t : State} {ph : Seq} (hseq : s.seq = ph) (hresult : resultOf ph = some t.status) :
    ReportsResult s t :=
  .inr (hseq ▸ hresult)

theorem Quiet.reportsResult {s t : State} (hquiet : Quiet s t) : ReportsResult s t := .inl hquiet.status

theorem execInit_reportsResult {q : Operands} {s t : State} (h : execInit q s = .next t) : ReportsResult s t := by
  unfold execInit at h
  split at h
  · cases h
    exact .inl rfl
  · split at h
    · cases h
      exact .inl rfl
    · split at h <;> cases h
      · exact .inl rfl
      · obtain ⟨-, rest, -, rfl⟩ := openTransport_returned ‹_›
        exact .inl rfl
      · obtain ⟨-, rest, -, rfl⟩ := openTransport_returned ‹_›
        exact .inl rfl
    · split at h <;> cases h
      · exact .inl rfl
      · obtain ⟨-, rest, -, rfl⟩ := configureLine_returned ‹_›
        exact .inl rfl
      · obtain ⟨-, rest, -, rfl⟩ := configureLine_returned ‹_›
        exact .inl rfl
    · cases h
      exact .of_phase ‹_› rfl
    · split at h <;> cases h
      · exact .inl rfl
      · obtain ⟨-, rfl⟩ := releaseTransport_returned ‹_›
        exact .inl rfl
    · cases h
      exact .of_phase ‹_› rfl
    · cases h

theorem execClose_reportsResult {q : Operands} {s t : State} (h : execClose q s = .next t) : ReportsResult s t := by
  unfold execClose at h
  split at h
  · cases h
    exact .inl rfl
  · split at h
    · cases h
      exact .inl rfl
    · split at h <;> cases h
      · exact .inl rfl
      · obtain ⟨-, rfl⟩ := releaseTransport_returned ‹_›
        exact .inl rfl
    · cases h
      exact .of_phase ‹_› rfl
    · cases h

theorem execWrite_reportsResult {q : Operands} {s t : State} (h : execWrite q s = .next t) : ReportsResult s t := by
  unfold execWrite at h
  split at h
  · cases h
    exact .inl rfl
  · split at h <;> cases h
    · exact (afterCheck_quiet _ _ _ s).reportsResult
    · exact (afterCombinedCheck_quiet _ _ s).reportsResult
    all_goals exact .of_phase ‹_› rfl

theorem execRead_reportsResult {q : Operands} {s t : State} (h : execRead q s = .next t) : ReportsResult s t := by
  unfold execRead at h
  split at h
  · cases h
    exact .inl rfl
  · split at h <;> cases h
    · exact (afterCheck_quiet _ _ _ s).reportsResult
    · exact (afterCombinedCheck_quiet _ _ s).reportsResult
    all_goals exact .of_phase ‹_› rfl

theorem execDelay_reportsResult {q : Operands} {s t : State} (h : execDelay q s = .next t) : ReportsResult s t := by
  unfold execDelay at h
  split at h
  · cases h
    exact .inl rfl
  · split at h <;> cases h
    · exact .inl rfl
    · exact .of_phase ‹_› rfl

theorem exec_reportsResult {i : Instr} {s t : State} (h : exec i s = .next t) : ReportsResult s t := by
  cases i with
  | init q => exact execInit_reportsResult h
  | close q => exact execClose_reportsResult h
  | write q => exact execWrite_reportsResult h
  | read q => exact execRead_reportsResult h
  | delay q => exact execDelay_reportsResult h
  | reservedOp5 q => cases h
  | reservedOp6 q => cases h
  | reservedOp7 q => cases h
  | enterBinary => exact (execEnterBinary_quiet h).reportsResult
  | enterI2c => exact (execEnterI2c_quiet h).reportsResult
  | addrSelect dev dir reg => exact (execAddrSelect_quiet h).reportsResult
  | reselectRead dev => exact (execReselectRead_quiet h).reportsResult
  | bulkHdr n => exact (execBulkHdr_quiet h).reportsResult
  | bulkPayload data => exact (execBulkPayload_quiet h).reportsResult
  | stop => exact (execStop_quiet h).reportsResult
  | readByte => exact (execReadByte_quiet h).reportsResult
  | endRead => exact (execEndRead_quiet h).reportsResult
  | resetTerm => exact (execResetTerm_quiet h).reportsResult
  | wtr r out => exact (execWtr_quiet h).reportsResult

/-- Without a reset a step writes no other result to STATUS than the one its phase holds. -/
theorem step_reportsResult {s t : State} (hr : s.resetReq = none) (h : step s = .next t) : ReportsResult s t := by
  obtain ⟨-, rfl⟩ | ⟨i, -, hexec⟩ := step_next hr h
  · exact .inl rfl
  · exact exec_reportsResult hexec

/-! ## No timeout without RX_TIMEOUT (R207, R218) -/

theorem exchangeError_timeoutError (p : Params) : exchangeError p .timeoutError = p.rxTimeout.isSome := rfl

/-- A legal state whose phase holds the result `TimeoutError` has a timeout. -/
theorem Inv.rxTimeout_of_timeoutError {s : State} (hinv : Inv s) (hresult : resultOf s.seq = some .timeoutError) :
    s.params.rxTimeout.isSome := by
  have hlegal := hinv.result_legal
  cases hseq : s.seq <;> rw [hseq] at hresult <;> cases hresult
  case aDone | raised => simpa [resultAt, hseq, exchangeError_timeoutError] using hlegal
  case cDone | wDone | rDone | xDone => simp [resultAt, hseq] at hlegal

/-- Settles O26: a reset writes Ok, and any other step only the result of its phase, which in a legal state without a
timeout is not `TimeoutError`. -/
theorem noTimeoutErrorWithoutTimeout : Obligations.NoTimeoutErrorWithoutTimeout := by
  intro s t hinv hnone hstatus h
  obtain ⟨hparams, -⟩ := operandsStayLatched s t h
  refine ⟨hparams ▸ hnone, fun htimeout => ?_⟩
  cases hr : s.resetReq with
  | some backlog =>
    rw [step_of_reset hr] at h
    cases h
    cases htimeout
  | none =>
    obtain hkept | hresult := step_reportsResult hr h
    · exact hstatus (hkept ▸ htimeout)
    · simpa [hnone] using hinv.rxTimeout_of_timeoutError (htimeout ▸ hresult)

end Sys2Proof.Machine
end

section
namespace Sys2Proof.Machine

/-! ## Reset values and what the host reads (R10, R13, R14, R219, R231) -/

/-- After a reset the host reads 0 from every register, the operand registers and the path among them (log entry 6). -/
@[simp] theorem hostRead_reset (r : HostReg) : hostRead State.reset r = 0 := by
  cases r <;> rfl

/-- Settles O1: every host read of the reset state is 0, and in any state each table of codes computes, since a read sees
only the register it names. -/
theorem resetValues : Obligations.ResetValues := by
  refine ⟨⟨rfl, rfl, rfl, rfl, rfl, rfl, rfl, ?reads⟩, fun s => ⟨?conn, ?strat, ?status, ?busy, ?desync, ?operands⟩⟩
  case reads => simp only [hostRead_reset, and_self]
  case operands => exact ⟨rfl, rfl, rfl, rfl, rfl, rfl⟩
  all_goals rfl

end Sys2Proof.Machine
end

section
/-!
PROOFS. The laws of a legal state from one step to the next (10_state R11, R16, R20 to R26; 43_bridge_ops R182;
60_exceptions R214): what a move of SEQ has to show, said once, then every phase of every wire frame as such a move.
-/
namespace Sys2Proof.Machine

/-! ## One move of an operation in flight -/

/-- Every law that `s`, in phase `a`, obeys still holds of `t`, and the operation goes on. A law that reads the same in
both phases needs no argument. -/
structure Advance (a : Seq) (s t : State) : Prop where
  running  : a ≠ .idle ∧ t.seq ≠ .idle := by exact ⟨nofun, nofun⟩
  busy     : t.busy = s.busy := by rfl
  conn     : connAt a s.conn = true → connAt t.seq t.conn = true := by exact id
  op       : opAt a s.op = true → opAt t.seq t.op = true := by exact id
  strat    : stratAt a s.strat = true → stratAt t.seq t.strat = true := by exact id
  await    : s.await.toNat = owed { s with seq := a } → t.await.toNat = owed t := by exact id
  counters : countersOk { s with seq := a } → countersOk t := by exact id
  result   : resultAt { s with seq := a } = true → resultAt t = true := by exact id
  desync   : t.desync = true → s.desync = true ∧ t.conn = s.conn ∧ t.seq ≠ .iDone := by exact fun h => ⟨h, rfl, nofun⟩
  abuf     : s.abuf.length ≤ Config.chunkR → t.abuf.length ≤ Config.chunkR := by exact id
  wbuf     : t.wbuf = s.wbuf := by rfl
  rbuf     : Memory.wf s.rbuf = true → Memory.wf t.rbuf = true := by exact id

theorem Inv.advance {a : Seq} {s t : State} (hinv : Inv s) (hseq : s.seq = a) (h : Advance a s t) : Inv t := by
  subst hseq
  obtain ⟨hrun, hnext⟩ := h.running
  have hb : t.busy = true := h.busy.trans (hinv.busy_iff_running.mpr hrun)
  refine ⟨iff_of_true hb hnext, h.conn hinv.conn_legal, h.op hinv.op_legal, h.strat hinv.strat_legal,
    h.await hinv.await_owed, h.counters hinv.counters, h.result hinv.result_legal, fun hd => ?_, h.abuf hinv.abuf_fits,
    h.wbuf ▸ hinv.wbuf_wf, h.rbuf hinv.rbuf_wf⟩
  obtain ⟨hset, hconn, hdone⟩ := h.desync hd
  obtain ⟨hopen, -⟩ := hinv.desync_open hset
  exact ⟨hconn.trans hopen, hdone⟩

theorem Inv.connAt_of {s : State} {a : Seq} (hinv : Inv s) (hseq : s.seq = a) : connAt a s.conn = true :=
  hseq ▸ hinv.conn_legal

/-- A transport that is open, or Closed, at the end of an operation is one of the two an idle block has. -/
theorem settled_of_i2cMode {c : Conn} (h : (c == .i2cMode) = true) : (c == .closed || c == .i2cMode) = true := by
  simp [h]

/-! ## A raise (R101, R213) -/

/-- The class of the exchange a phase belongs to; no other phase raises. -/
def exchangeClass : Seq → Option ExchangeClass
  | .iBinTx | .iBinRx | .iI2cTx | .iI2cRx => some .neg
  | .wAddrTx | .wAddrRx | .wHdrTx | .wHdrRx | .wPayTx | .wPayRx | .wStopTx | .wStopRx
  | .rAddrTx | .rAddrRx | .rReselTx | .rReselRx | .rByteTx | .rByteRx | .rEndTx | .rEndRx
  | .xCmdTx _ | .xStatRx _ | .xDataRx _ => some .txn
  | _ => none

/-- A raise keeps OP and CONN as the phase of the exchange had them. -/
theorem abortPhase_laws {a : Seq} {cls : ExchangeClass} (hcls : exchangeClass a = some cls) (e : Status) :
    (∀ c, connAt a c = true → connAt (abortPhase cls e) c = true) ∧
      (∀ op, opAt a op = true → opAt (abortPhase cls e) op = true) := by
  unfold exchangeClass at hcls
  split at hcls <;> cases hcls <;> simp +contextual [abortPhase, connAt, opAt]

theorem exchangeError_protocolMismatchError (p : Params) : exchangeError p .protocolMismatchError = true := rfl

/-- Every abort phase can report the errors of an exchange. -/
theorem resultAt_of_exchangeError {s : State} {e : Status} (cls : ExchangeClass)
    (he : exchangeError s.params e = true) : resultAt { s with seq := abortPhase cls e } = true := by
  cases cls <;> simp [resultAt, abortPhase, he]

theorem resultAt_sendError (s : State) (cls : ExchangeClass) :
    resultAt { s with seq := abortPhase cls (sendError cls) } = true := by
  cases cls with
  | neg => exact resultAt_of_exchangeError .neg (exchangeError_protocolMismatchError _)
  | txn => simp [resultAt, abortPhase, sendError]

theorem Inv.raise {s : State} {cls : ExchangeClass} {e : Status} {ab : List Byte} {aw : BitVec 17} {l : Link}
    (hinv : Inv s) (hcls : exchangeClass s.seq = some cls)
    (hresult : resultAt { s with seq := abortPhase cls e } = true) (hfit : ab.length ≤ Config.chunkR) :
    Inv (raiseError cls e { s with abuf := ab, await := aw, link := l }) := by
  obtain ⟨hconn, hop⟩ := abortPhase_laws hcls e
  have hrun : s.seq ≠ .idle := fun hidle => by simp [hidle, exchangeClass] at hcls
  rw [raiseError_eq]
  cases cls <;> exact hinv.advance rfl
    { running := ⟨hrun, nofun⟩, conn := hconn _, op := hop _, strat := fun _ => rfl, await := fun _ => rfl,
      counters := fun _ => trivial, result := fun _ => hresult, abuf := fun _ => hfit }

theorem Received.abuf_fits {n : Nat} {s : State} {r : RxResult} {ab : List Byte} {aw : BitVec 17} {l : Link}
    (h : Received n s r ab aw l) (hinv : Inv s) : ab.length ≤ Config.chunkR := by
  obtain ⟨a, rest, -, ⟨left, -, -, hlen, -⟩ | ⟨-, rfl, -⟩ | ⟨-, -, rfl, -⟩⟩ := h.answered
  · exact hlen.trans h.bounded
  · exact hinv.abuf_fits
  · exact hinv.abuf_fits

theorem RaisedBy.legal {s t : State} {cls : ExchangeClass} {n : Nat} {e : Status} (h : RaisedBy cls n e s t)
    (hinv : Inv s) (hcls : exchangeClass s.seq = some cls)
    (hresult : resultAt { s with seq := abortPhase cls e } = true) : Inv t := by
  obtain ⟨r, ab, aw, l, e', hrecv, ⟨rfl, htimeout⟩ | rfl, rfl⟩ := h
  · have htime : exchangeError s.params .timeoutError = true := by
      rw [exchangeError_timeoutError, Option.isSome_iff_ne_none]
      exact htimeout
    exact hinv.raise hcls (resultAt_of_exchangeError cls htime) (hrecv.abuf_fits hinv)
  · exact hinv.raise hcls hresult (hrecv.abuf_fits hinv)

/-! ## The halves of an exchange (R100) -/

section Halves

variable {s t : State} {a : Seq} {cls : ExchangeClass}

theorem Inv.sendFrame {bytes : List Byte} {k : BitVec 17} {ph : Seq} (hinv : Inv s) (hseq : s.seq = a)
    (h : sendFrame cls bytes k ph s = .next t)
    (hwhole : ∀ l, Advance a s { s with await := k, seq := ph, link := l })
    (hcls : exchangeClass a = some cls := by rfl) : Inv t := by
  obtain rfl | ⟨r, l, -, ⟨-, rfl⟩ | ⟨-, rfl⟩⟩ := sendFrame_shape h
  · exact hinv
  · exact hinv.advance hseq (hwhole l)
  · exact hinv.raise (hseq ▸ hcls) (resultAt_sendError s cls) hinv.abuf_fits

theorem Inv.sendBestEffort {bytes : List Byte} {ph : Seq} (hinv : Inv s) (hseq : s.seq = a)
    (h : sendBestEffort bytes ph s = .next t) (hwhole : ∀ l, Advance a s { s with seq := ph, link := l }) : Inv t := by
  obtain rfl | ⟨r, l, -, rfl⟩ := sendBestEffort_shape h
  · exact hinv
  · exact hinv.advance hseq (hwhole l)

theorem Inv.receiveExactly {n : Nat} {go : State → Out} (hinv : Inv s) (hseq : s.seq = a)
    (h : receiveExactly cls n go s = .next t)
    (hgo : ∀ ab aw l, Received n s (.bytes ab) ab aw l → ab.length = n → ab.length ≤ Config.chunkR →
      go { s with abuf := ab, await := aw, link := l } = .next t → Inv t)
    (hcls : exchangeClass a = some cls := by rfl) : Inv t := by
  obtain rfl | hraise | ⟨ab, aw, l, hrecv, hlen, hnext⟩ := receiveExactly_shape h
  · exact hinv
  · exact hraise.legal hinv (hseq ▸ hcls) (resultAt_of_exchangeError cls (exchangeError_protocolMismatchError _))
  · exact hgo ab aw l hrecv hlen (hrecv.abuf_fits hinv) hnext

theorem Inv.receiveAck {n : Nat} {after : State → State} (hinv : Inv s) (hseq : s.seq = a)
    (h : receiveAck cls n (fun u => .next (after u)) s = .next t)
    (hafter : ∀ ab l, ab.length ≤ Config.chunkR → Advance a s (after { s with abuf := ab, await := 0, link := l }))
    (hcls : exchangeClass a = some cls := by rfl) : Inv t := by
  refine hinv.receiveExactly hseq h (fun ab aw l _ _ hfit hnext => ?_) hcls
  cases hnext
  exact hinv.advance hseq (hafter ab l hfit)

theorem Inv.receiveLiteral {literal : List Byte} {after : State → State} (hinv : Inv s) (hseq : s.seq = a)
    (h : receiveLiteral literal (fun u => .next (after u)) s = .next t)
    (hafter : ∀ l, literal.length ≤ Config.chunkR →
      Advance a s (after { s with abuf := literal, await := 0, link := l }))
    (hcls : exchangeClass a = some .neg := by rfl) : Inv t := by
  obtain rfl | hraise | ⟨aw, l, hrecv, hnext⟩ := receiveLiteral_shape h
  · exact hinv
  · exact hraise.legal hinv (hseq ▸ hcls) (resultAt_of_exchangeError .neg (exchangeError_protocolMismatchError _))
  · cases hnext
    exact hinv.advance hseq (hafter l (hrecv.abuf_fits hinv))

end Halves

/-! ## The negotiation (R122, R123, R149) -/

/-- DESYNC is 0 on the way to an open transport (R214). -/
theorem Inv.desync_eq_false {s : State} (hinv : Inv s) (hconn : s.conn ≠ .i2cMode) : s.desync = false := by
  by_contra hset
  obtain ⟨hopen, -⟩ := hinv.desync_open (by simpa using hset)
  exact hconn hopen

theorem Inv.enterBinary {s t : State} (hinv : Inv s) (phase : s.seq ∈ [.iBinTx, .iBinRx])
    (h : exec .enterBinary s = .next t) : Inv t := by
  obtain hseq | hseq := List.mem_pair.mp phase
  · rw [exec_enterBinary_send s hseq] at h
    exact hinv.sendFrame hseq h (fun _ => { await := fun _ => rfl })
  · rw [exec_enterBinary_receive s hseq] at h
    have hconn : s.conn = .unknown := by simpa [connAt, hseq] using hinv.conn_legal
    have hclear : s.desync = false := hinv.desync_eq_false (by simp [hconn])
    exact hinv.receiveLiteral hseq h (fun _ hfit =>
      { conn := fun _ => rfl, await := fun _ => rfl, desync := by simp [hclear], abuf := fun _ => hfit })

theorem Inv.enterI2c {s t : State} (hinv : Inv s) (phase : s.seq ∈ [.iI2cTx, .iI2cRx])
    (h : exec .enterI2c s = .next t) : Inv t := by
  obtain hseq | hseq := List.mem_pair.mp phase
  · rw [exec_enterI2c_send s hseq] at h
    exact hinv.sendFrame hseq h (fun _ => { await := fun _ => rfl })
  · rw [exec_enterI2c_receive s hseq] at h
    have hconn : s.conn = .binaryMode := by simpa [connAt, hseq] using hinv.conn_legal
    have hclear : s.desync = false := hinv.desync_eq_false (by simp [hconn])
    exact hinv.receiveLiteral hseq h (fun _ hfit =>
      { conn := fun _ => rfl, await := fun _ => rfl, desync := by simp [hclear], abuf := fun _ => hfit })

/-- A best-effort send goes on to the release with the result it had (R125, R128). -/
theorem Inv.resetTerm {s t : State} (hinv : Inv s) (phase : s.seq = .cResetTx ∨ ∃ e, s.seq = .aResetTx e)
    (h : exec .resetTerm s = .next t) : Inv t := by
  obtain hseq | ⟨e, hseq⟩ := phase <;> simp only [exec, execResetTerm, hseq] at h
  · exact hinv.sendBestEffort hseq h (fun _ => {})
  · exact hinv.sendBestEffort hseq h (fun _ => { result := fun he => by simp_all [resultAt] })

/-! ## The frames of a PerByte transaction (R141 to R148) -/

/-- The loop head of WRITE starts a chunk inside LEN, or stops at LEN (R171). -/
theorem advance_nextChunk {a : Seq} {s : State} {cursor : Half} {ab : List Byte} {l : Link}
    (phase : a = .wAddrRx ∨ a = .wPayRx) (hlen : s.args.len.toNat ≤ Config.maxWriteLen)
    (hcursor : cursor.toNat ≤ s.args.len.toNat) (hfit : ab.length ≤ Config.chunkR) :
    Advance a s (nextChunk { s with abuf := ab, await := 0, link := l, cursor := cursor }) := by
  unfold nextChunk moreBytes
  split
  · rename_i hmore
    have hless : cursor.toNat < s.args.len.toNat := of_decide_eq_true hmore
    obtain rfl | rfl := phase <;>
      exact { await := fun _ => rfl, counters := fun _ => ⟨hlen, hless, rfl⟩, abuf := fun _ => hfit }
  · rename_i hdone
    have hend : s.args.len.toNat ≤ cursor.toNat := by simpa using hdone
    have heq : cursor = s.args.len := BitVec.eq_of_toNat_eq (hcursor.antisymm hend)
    obtain rfl | rfl := phase <;>
      exact { await := fun _ => rfl, counters := fun _ => ⟨hlen, heq⟩, abuf := fun _ => hfit }

theorem Inv.addrSelect {s t : State} {dev : BitVec 7} {dir : Direction} {reg : Byte} (hinv : Inv s)
    (phase : s.seq ∈ [.wAddrTx, .wAddrRx, .rAddrTx, .rAddrRx]) (h : exec (.addrSelect dev dir reg) s = .next t) :
    Inv t := by
  simp only [List.mem_cons, List.not_mem_nil, or_false] at phase
  obtain hseq | hseq | hseq | hseq := phase
  · rw [exec_addrSelect_writeSend _ _ _ _ hseq] at h
    exact hinv.sendFrame hseq h (fun _ => { await := fun _ => rfl })
  · rw [exec_addrSelect_writeReceive _ _ _ _ hseq] at h
    have hlen : s.args.len.toNat ≤ Config.maxWriteLen := by simpa [countersOk, hseq] using hinv.counters
    exact hinv.receiveAck hseq h (fun _ _ => advance_nextChunk (.inl rfl) hlen (Nat.zero_le _))
  · rw [exec_addrSelect_readSend _ _ _ _ hseq] at h
    exact hinv.sendFrame hseq h (fun _ => { await := fun _ => rfl })
  · rw [exec_addrSelect_readReceive _ _ _ _ hseq] at h
    exact hinv.receiveAck hseq h (fun _ _ hfit => { await := fun _ => rfl, abuf := fun _ => hfit })

theorem Inv.bulkHdr {s t : State} {n : BitVec 4} (hinv : Inv s) (phase : s.seq ∈ [.wHdrTx, .wHdrRx])
    (h : exec (.bulkHdr n) s = .next t) : Inv t := by
  obtain hseq | hseq := List.mem_pair.mp phase
  · rw [exec_bulkHdr_send n s hseq] at h
    exact hinv.sendFrame hseq h (fun _ => { await := fun _ => rfl })
  · rw [exec_bulkHdr_receive n s hseq] at h
    exact hinv.receiveAck hseq h (fun _ _ hfit => { await := fun _ => rfl, abuf := fun _ => hfit })

/-- What a chunk in flight says of LEN, CURSOR and CHUNK_N (R171). -/
theorem Inv.chunk_counters {s : State} (hinv : Inv s) (phase : s.seq = .wPayTx ∨ s.seq = .wPayRx) :
    s.args.len.toNat ≤ Config.maxWriteLen ∧ s.cursor.toNat + s.chunkN.toNat ≤ s.args.len.toNat := by
  have hcount := hinv.counters
  obtain ⟨hlen, hmore, hchunk⟩ : s.args.len.toNat ≤ Config.maxWriteLen ∧ s.cursor.toNat < s.args.len.toNat ∧
      s.chunkN = writeChunk s.cursor s.args.len := by
    obtain hseq | hseq := phase <;> simpa [countersOk, hseq] using hcount
  refine ⟨hlen, ?_⟩
  rw [hchunk, writeChunk_toNat]
  omega

theorem toNat_ofNat_chunkN (n : BitVec 5) : (BitVec.ofNat 17 n.toNat).toNat = n.toNat := by
  simp only [BitVec.toNat_ofNat]
  omega

theorem Inv.bulkPayload {s t : State} (hinv : Inv s) (phase : s.seq ∈ [.wPayTx, .wPayRx])
    (h : exec (.bulkPayload (payloadOf s)) s = .next t) : Inv t := by
  obtain ⟨hlen, hroom⟩ := hinv.chunk_counters (List.mem_pair.mp phase)
  rw [← payloadOf_length] at hroom
  obtain hseq | hseq := List.mem_pair.mp phase
  · rw [exec_bulkPayload_send hseq hroom, payloadOf_length] at h
    exact hinv.sendFrame hseq h (fun _ => { await := fun _ => toNat_ofNat_chunkN s.chunkN })
  · rw [exec_bulkPayload_receive _ s hseq] at h
    exact hinv.receiveAck hseq h (fun _ _ => advance_nextChunk (.inr rfl) hlen ((advance_toNat hroom).trans_le hroom))

theorem Inv.stop {s t : State} (hinv : Inv s) (phase : s.seq ∈ [.wStopTx, .wStopRx]) (h : exec .stop s = .next t) :
    Inv t := by
  obtain hseq | hseq := List.mem_pair.mp phase
  · rw [exec_stop_send s hseq] at h
    exact hinv.sendFrame hseq h (fun _ => { await := fun _ => rfl })
  · rw [exec_stop_receive s hseq] at h
    exact hinv.receiveAck hseq h (fun _ _ hfit =>
      { conn := settled_of_i2cMode, await := fun _ => rfl, counters := fun _ => trivial, abuf := fun _ => hfit })

/-- The loop head of READ asks for a byte below LEN, or ends at LEN (R173). -/
theorem advance_nextByte {a : Seq} {s : State} {cursor : Half} {ab : List Byte} {l : Link} {rbuf : Memory}
    (phase : a = .rReselRx ∨ a = .rByteRx) (hcursor : cursor.toNat ≤ s.args.len.toNat)
    (hfit : ab.length ≤ Config.chunkR) (hrbuf : Memory.wf s.rbuf = true → Memory.wf rbuf = true) :
    Advance a s (nextByte { s with abuf := ab, await := 0, link := l, rbuf := rbuf, cursor := cursor }) := by
  unfold nextByte moreBytes
  split
  · rename_i hmore
    have hless : cursor.toNat < s.args.len.toNat := of_decide_eq_true hmore
    obtain rfl | rfl := phase <;>
      exact { await := fun _ => rfl, counters := fun _ => hless, abuf := fun _ => hfit, rbuf := hrbuf }
  · rename_i hdone
    have hend : s.args.len.toNat ≤ cursor.toNat := by simpa using hdone
    have heq : cursor = s.args.len := BitVec.eq_of_toNat_eq (hcursor.antisymm hend)
    obtain rfl | rfl := phase <;>
      exact { await := fun _ => rfl, counters := fun _ => heq, abuf := fun _ => hfit, rbuf := hrbuf }

theorem Inv.reselectRead {s t : State} {dev : BitVec 7} (hinv : Inv s) (phase : s.seq ∈ [.rReselTx, .rReselRx])
    (h : exec (.reselectRead dev) s = .next t) : Inv t := by
  obtain hseq | hseq := List.mem_pair.mp phase
  · rw [exec_reselectRead_send dev s hseq] at h
    exact hinv.sendFrame hseq h (fun _ => { await := fun _ => rfl, counters := fun _ => trivial })
  · rw [exec_reselectRead_receive dev s hseq] at h
    exact hinv.receiveAck hseq h (fun _ _ hfit => advance_nextByte (.inl rfl) (Nat.zero_le _) hfit id)

/-- A byte is stored below LEN, and CURSOR does not pass LEN (R42, R173). -/
theorem Inv.readByte {s t : State} (hinv : Inv s) (phase : s.seq ∈ [.rByteTx, .rByteRx])
    (h : exec .readByte s = .next t) : Inv t := by
  obtain hseq | hseq := List.mem_pair.mp phase
  · rw [exec_readByte_send s hseq] at h
    exact hinv.sendFrame hseq h (fun _ => { await := fun _ => rfl })
  · rw [exec_readByte_receive s hseq] at h
    have hroom : s.cursor.toNat + 1 ≤ s.args.len.toNat := by simpa [countersOk, hseq] using hinv.counters
    refine hinv.receiveExactly hseq h (fun ab aw l _ _ hfit hstore => ?_)
    unfold storeByte at hstore
    split at hstore <;> cases hstore
    exact hinv.advance hseq
      (advance_nextByte (.inr rfl) ((advance_toNat hroom).trans_le hroom) hfit fun hwf => Memory.write_wf _ hwf _ _)

theorem Inv.endRead {s t : State} (hinv : Inv s) (phase : s.seq ∈ [.rEndTx, .rEndRx])
    (h : exec .endRead s = .next t) : Inv t := by
  obtain hseq | hseq := List.mem_pair.mp phase
  · rw [exec_endRead_send s hseq] at h
    exact hinv.sendFrame hseq h (fun _ => { await := fun _ => rfl })
  · rw [exec_endRead_receive s hseq] at h
    exact hinv.receiveAck hseq h (fun _ _ hfit =>
      { conn := settled_of_i2cMode, await := fun _ => rfl, counters := fun _ => trivial, abuf := fun _ => hfit })

/-! ## The Combined frame (R151, R181) -/

/-- The input phase of the combined frame in flight is that of a READ's second frame, of LEN bytes (R178, R179). -/
theorem Inv.wtrOf_eq {s : State} {last : Bool} (hinv : Inv s) (phase : s.seq ∈ [.xCmdTx last, .xStatRx last]) :
    ∃ r out, wtrOf last s = .wtr r out ∧ r.toNat = inputLength last s := by
  have hop : s.op = 3 ∨ last = true ∧ s.op = 2 := by
    have hlegal := hinv.op_legal
    obtain hseq | hseq := List.mem_pair.mp phase <;> simpa [opAt, hseq] using hlegal
  obtain hread | ⟨rfl, hwrite⟩ := hop
  · cases last with
    | true =>
      have hwtr : wtrOf true s = wtrOfReadData s.args := by simp [wtrOf, hread]
      exact ⟨_, _, hwtr, by simp [inputLength, hread]⟩
    | false =>
      have hwtr : wtrOf false s = wtrOfReadPointer s.args := by simp [wtrOf, hread]
      exact ⟨_, _, hwtr, by simp [inputLength]⟩
  · exact ⟨_, _, wtrOf_write hwrite rfl rfl, by simp [inputLength, hwrite]⟩

/-- After the last input byte an operation's last frame completes it and a READ's first frame leads to its second;
before that the input phase of a READ's second frame goes on. -/
theorem Inv.nextInput {last : Bool} {s : State} {aw : BitVec 17} {cursor remain : Half} {ab : List Byte} {l : Link}
    {rbuf : Memory} (hinv : Inv s) (phase : s.seq ∈ [.xCmdTx last, .xStatRx last, .xDataRx last])
    (howed : aw.toNat = remain.toNat) (hpointer : last = false → cursor = 0)
    (hinput : remain ≠ 0 → last = true ∧ s.op = 3 ∧ cursor.toNat + remain.toNat = s.args.len.toNat)
    (hfit : ab.length ≤ Config.chunkR) (hrbuf : Memory.wf rbuf = true) :
    Inv (nextInput last
      { s with abuf := ab, await := aw, link := l, rbuf := rbuf, cursor := cursor, remain := remain }) := by
  obtain ⟨hconn, hstrat⟩ := hinv.of_combinedExchange phase
  have hop : s.op = 3 ∨ last = true ∧ s.op = 2 := by
    have hlegal := hinv.op_legal
    simp only [List.mem_cons, List.not_mem_nil, or_false] at phase
    obtain hseq | hseq | hseq := phase <;> simp_all [opAt]
  have hrun : s.seq ≠ .idle := fun hidle => by simp [hidle] at phase
  unfold Machine.nextInput
  split
  · rename_i hzero
    have hfree : aw.toNat = 0 := by simpa [howed] using congrArg BitVec.toNat hzero
    cases last with
    | true =>
      exact hinv.advance rfl
        { running := ⟨hrun, nofun⟩, conn := fun _ => by simp [connAt, hconn]
          op := fun _ => by simpa [opAt, or_comm] using hop
          strat := fun _ => by simp [stratAt, hstrat], await := fun _ => hfree, counters := fun _ => trivial
          result := fun _ => rfl, abuf := fun _ => hfit, rbuf := fun _ => hrbuf }
    | false =>
      have hread : s.op = 3 := by simpa using hop
      exact hinv.advance rfl
        { running := ⟨hrun, nofun⟩, conn := fun _ => by simp [connAt, hconn], op := fun _ => by simp [opAt, hread]
          strat := fun _ => by simp [stratAt, hstrat], await := fun _ => hfree
          counters := fun _ => ⟨hpointer rfl, by simp [hread]⟩
          result := fun _ => rfl, abuf := fun _ => hfit, rbuf := fun _ => hrbuf }
  · rename_i hmore
    obtain ⟨hlast, hread, hrest⟩ := hinput hmore
    exact hinv.advance rfl
      { running := ⟨hrun, nofun⟩, conn := fun _ => by simp [connAt, hconn], op := fun _ => by simp [opAt, hlast, hread]
        strat := fun _ => by simp [stratAt, hstrat], await := fun _ => howed
        counters := fun _ => ⟨hmore, hrest, rfl⟩
        result := fun _ => rfl, abuf := fun _ => hfit, rbuf := fun _ => hrbuf }

theorem Inv.wtrSend {s t : State} {last : Bool} (hinv : Inv s) (hseq : s.seq = .xCmdTx last)
    (h : exec (wtrOf last s) s = .next t) : Inv t := by
  obtain ⟨r, out, hwtr, hr⟩ := hinv.wtrOf_eq (last := last) (by simp [hseq])
  rw [hwtr, exec_wtr_send r out last s hseq] at h
  have howed : (BitVec.ofNat 17 (1 + r.toNat)).toNat = 1 + inputLength last s := by
    rw [BitVec.toNat_ofNat, hr]
    omega
  exact hinv.sendFrame hseq h (fun _ => { await := fun _ => howed })

theorem Inv.wtrStatus {s t : State} {last : Bool} (hinv : Inv s) (hseq : s.seq = .xStatRx last)
    (h : exec (wtrOf last s) s = .next t) : Inv t := by
  obtain ⟨r, out, hwtr, hr⟩ := hinv.wtrOf_eq (last := last) (by simp [hseq])
  rw [hwtr, exec_wtr_status r out last s hseq] at h
  obtain ⟨hcursor, -⟩ : s.cursor = 0 ∧ _ := by simpa only [countersOk, hseq] using hinv.counters
  have howed : s.await.toNat = 1 + r.toNat := by simpa [owed, hseq, hr] using hinv.await_owed
  refine hinv.receiveExactly hseq h (fun ab aw l hrecv hlen hfit hstatus => ?_)
  obtain ⟨-, rfl, -⟩ := hrecv.bytes
  unfold checkStatus at hstatus
  split at hstatus <;> cases hstatus
  · refine hinv.nextInput (by simp [hseq]) ?_ (fun _ => hcursor) (fun hmore => ?_) hfit hinv.rbuf_wf
    · rw [hlen, BitVec.toNat_sub, BitVec.toNat_ofNat]
      omega
    · unfold inputLength at hr
      split at hr
      · rename_i hlast
        obtain ⟨htrue, hread⟩ : last = true ∧ s.op = 3 := by simpa using hlast
        exact ⟨htrue, hread, by simp [hcursor, hr]⟩
      · exact absurd (BitVec.eq_of_toNat_eq hr) hmore
  · exact hinv.raise (by rw [hseq]; rfl) (resultAt_of_exchangeError .txn (exchangeError_protocolMismatchError _)) hfit

/-- What a receive of the input phase stores, CURSOR gains and REMAIN and AWAIT lose (R99, R151). -/
theorem Inv.wtrInput {s t : State} {last : Bool} (hinv : Inv s) (hseq : s.seq = .xDataRx last)
    (h : exec (wtrOf last s) s = .next t) : Inv t := by
  obtain ⟨r, out, hwtr⟩ := wtrOf_wtr last s
  rw [hwtr, exec_wtr_input r out last s hseq] at h
  obtain ⟨hlast, hread⟩ : last = true ∧ s.op = 3 := by simpa [opAt, hseq] using hinv.op_legal
  have hstrat : s.strat = .combined := by simpa [stratAt, hseq] using hinv.strat_legal
  obtain ⟨-, hrest, hchunk⟩ : s.remain ≠ 0 ∧ s.cursor.toNat + s.remain.toNat = s.args.len.toNat ∧
      s.chunkN = inputChunk s.remain := by simpa only [countersOk, hseq] using hinv.counters
  have howed : s.await.toNat = s.remain.toNat := by simpa [owed, hseq] using hinv.await_owed
  obtain rfl | hraise | ⟨d, aw, l, hrecv, -, hstore⟩ := receiveInput_shape h
  · exact hinv
  · exact hraise.legal hinv (by rw [hseq]; rfl) (by simp [resultAt, abortPhase, hread, hstrat])
  · obtain ⟨-, rfl, hlen⟩ := hrecv.bytes
    rw [hchunk, inputChunk_toNat] at hlen
    have hroom : s.cursor.toNat + d.length ≤ s.args.len.toNat := by omega
    have hleft : (s.remain - BitVec.ofNat 16 d.length).toNat = s.remain.toNat - d.length := by
      rw [remain_sub_ofNat (by omega), BitVec.toNat_ofNat]
      omega
    unfold storeInput at hstore
    split at hstore <;> cases hstore
    refine hinv.nextInput (by simp [hseq]) ?_ (fun hfirst => by simp [hlast] at hfirst) (fun _ => ⟨hlast, hread, ?_⟩)
      (hrecv.abuf_fits hinv) (Memory.writeAll_wf _ hinv.rbuf_wf _ _)
    · rw [BitVec.toNat_sub, BitVec.toNat_ofNat, hleft]
      omega
    · rw [advance_toNat hroom, hleft]
      omega

theorem Inv.wtr {s t : State} {last : Bool} (hinv : Inv s)
    (phase : s.seq ∈ [.xCmdTx last, .xStatRx last, .xDataRx last]) (h : exec (wtrOf last s) s = .next t) : Inv t := by
  simp only [List.mem_cons, List.not_mem_nil, or_false] at phase
  obtain hseq | hseq | hseq := phase
  · exact hinv.wtrSend hseq h
  · exact hinv.wtrStatus hseq h
  · exact hinv.wtrInput hseq h

/-- Every frame in flight leads from a legal state to a legal state. -/
theorem FrameInFlight.legal {s t : State} {i : Instr} (hflight : FrameInFlight s i) (hinv : Inv s)
    (h : exec i s = .next t) : Inv t := by
  cases hflight with
  | enterBinary phase => exact hinv.enterBinary phase h
  | enterI2c phase => exact hinv.enterI2c phase h
  | addrSelect phase => exact hinv.addrSelect phase h
  | reselectRead phase => exact hinv.reselectRead phase h
  | bulkHdr phase => exact hinv.bulkHdr phase h
  | bulkPayload phase => exact hinv.bulkPayload phase h
  | stop phase => exact hinv.stop phase h
  | readByte phase => exact hinv.readByte phase h
  | endRead phase => exact hinv.endRead phase h
  | resetTerm phase => exact hinv.resetTerm phase h
  | wtr last phase => exact hinv.wtr phase h

end Sys2Proof.Machine
end

section
/-!
PROOFS. The host operations phase by phase (41_mode_negotiator R121 to R127; 43_bridge_ops R170, R185): each step is an
acceptance, a move that keeps the laws of a legal state, or the completion its phase reports.
-/
namespace Sys2Proof.Machine

/-- The phases that accept a request leads to (R16, R103). -/
def firstPhases : List Seq := [.iCheck, .cCheck, .wCheck, .rCheck, .xCheck, .dWait]

/-- What a step of a host operation is. -/
inductive OperationStep (s t : State) : Prop
  | accepted (code : BitVec 3) (q : Operands) (first : Seq) (idle : s.busy = false) (phase : first ∈ firstPhases)
      (op : opAt first code = true) (strat : stratAt first s.strat = true) (next : t = accept code q first s)
  | waiting (next : t = s)
  | moved (a : Seq) (phase : s.seq = a) (laws : Inv s → Advance a s t)
  | completed (a : Seq) (phase : s.seq = a) (r : Status) (result : resultOf a = some r) (strat : Strategy)
      (desync : Bool) (settled : Inv s → connAt .idle s.conn = true ∧ (desync = true → s.conn = .i2cMode))
      (next : t = complete r { s with strat := strat, desync := desync })

/-! ## Each kind of step is legal -/

theorem Inv.accept {s : State} {code : BitVec 3} {q : Operands} {first : Seq} (hinv : Inv s) (hidle : s.busy = false)
    (phase : first ∈ firstPhases) (hop : opAt first code = true) (hstrat : stratAt first s.strat = true) :
    Inv (accept code q first s) := by
  have hseq : s.seq = .idle := by
    by_contra hrunning
    simp [hinv.busy_iff_running.mpr hrunning] at hidle
  have hconn := hinv.conn_legal
  have hawait := hinv.await_owed
  rw [hseq] at hconn
  simp only [owed, hseq] at hawait
  simp only [firstPhases, List.mem_cons, List.not_mem_nil, or_false] at phase
  obtain rfl | rfl | rfl | rfl | rfl | rfl := phase <;>
    exact ⟨iff_of_true rfl nofun, hconn, hop, hstrat, hawait, trivial, rfl,
      fun hset => ⟨(hinv.desync_open hset).1, nofun⟩, hinv.abuf_fits, hinv.wbuf_wf, hinv.rbuf_wf⟩

theorem Inv.complete {s : State} {r : Status} (hinv : Inv s) {strat : Strategy} {desync : Bool}
    (hconn : connAt .idle s.conn = true) (hdesync : desync = true → s.conn = .i2cMode) :
    Inv (complete r { s with strat := strat, desync := desync }) :=
  ⟨iff_of_false Bool.false_ne_true (not_not.mpr rfl), hconn, rfl, rfl, rfl, trivial, rfl,
    fun hset => ⟨hdesync hset, nofun⟩, hinv.abuf_fits, hinv.wbuf_wf, hinv.rbuf_wf⟩

theorem OperationStep.legal {s t : State} (h : OperationStep s t) (hinv : Inv s) : Inv t := by
  cases h with
  | accepted code q first idle phase op strat next => exact next ▸ hinv.accept idle phase op strat
  | waiting next => exact next ▸ hinv
  | moved a phase laws => exact hinv.advance phase (laws hinv)
  | completed a phase r result strat desync settled next =>
    obtain ⟨hconn, hdesync⟩ := settled hinv
    exact next ▸ hinv.complete hconn hdesync

/-! ## The steps of each operation -/

/-- A completion that changes neither STRAT nor DESYNC, with the transport as the done phases have it. -/
theorem OperationStep.completes {s : State} {a : Seq} {r : Status} (phase : s.seq = a)
    (result : resultOf a = some r := by rfl)
    (hconn : connAt a s.conn = true → connAt .idle s.conn = true := by exact id) :
    OperationStep s (Machine.complete r s) :=
  .completed a phase r result s.strat s.desync
    (fun hinv => ⟨hconn (hinv.connAt_of phase), fun hset => (hinv.desync_open hset).1⟩) rfl

theorem execInit_operationStep {q : Operands} {s t : State} (h : execInit q s = .next t) : OperationStep s t := by
  unfold execInit at h
  split at h
  · cases h
    exact .accepted _ _ _ ‹_› (by simp [firstPhases]) rfl rfl rfl
  · split at h
    · rename_i hseq
      cases h
      by_cases hconn : s.conn = .closed
      · rw [if_pos hconn]
        exact .moved _ hseq fun _ => { conn := fun _ => by simp [connAt, hconn] }
      · rw [if_neg hconn]
        exact .moved _ hseq fun _ => { result := fun _ => by simp [resultAt] }
    · rename_i hseq
      split at h <;> cases h
      · exact .waiting rfl
      · obtain ⟨hclosed, rest, -, rfl⟩ := openTransport_returned ‹_›
        refine .moved _ hseq fun hinv => { conn := fun _ => rfl, desync := ?_ }
        simp [hinv.desync_eq_false (by simp [hclosed])]
      · obtain ⟨hclosed, rest, -, rfl⟩ := openTransport_returned ‹_›
        exact .moved _ hseq fun _ =>
          { conn := fun _ => by simp [connAt, hclosed], result := fun _ => by simp [resultAt] }
    · rename_i hseq
      split at h <;> cases h
      · exact .waiting rfl
      · obtain ⟨-, rest, -, rfl⟩ := configureLine_returned ‹_›
        exact .moved _ hseq fun _ => {}
      · obtain ⟨-, rest, -, rfl⟩ := configureLine_returned ‹_›
        exact .moved _ hseq fun _ =>
          { conn := fun hopen => by simp_all [connAt], result := fun _ => by simp [resultAt] }
    · rename_i hseq
      cases h
      exact .completed _ hseq .ok rfl _ false (fun hinv => ⟨settled_of_i2cMode (hinv.connAt_of hseq), nofun⟩) rfl
    · rename_i e hseq
      split at h <;> cases h
      · exact .waiting rfl
      · obtain ⟨-, rfl⟩ := releaseTransport_returned ‹_›
        refine .moved _ hseq fun _ => { conn := fun _ => rfl, desync := nofun, result := fun hresult => ?_ }
        simp only [resultAt, Bool.or_eq_true] at hresult ⊢
        exact .inl (.inl hresult)
    · cases h
      exact .completes ‹_›
    · cases h

theorem execClose_operationStep {q : Operands} {s t : State} (h : execClose q s = .next t) : OperationStep s t := by
  unfold execClose at h
  split at h
  · cases h
    exact .accepted _ _ _ ‹_› (by simp [firstPhases]) rfl rfl rfl
  · split at h
    · rename_i hseq
      cases h
      by_cases hconn : s.conn = .closed
      · rw [if_pos hconn]
        exact .moved _ hseq fun _ => { conn := fun _ => by simp [connAt, hconn], result := fun _ => rfl }
      · rw [if_neg hconn]
        exact .moved _ hseq fun _ => { conn := fun hlegal => by simpa [connAt, hconn] using hlegal }
    · rename_i hseq
      split at h <;> cases h
      · exact .waiting rfl
      · obtain ⟨-, rfl⟩ := releaseTransport_returned ‹_›
        exact .moved _ hseq fun _ => { conn := fun _ => rfl, desync := nofun, result := fun _ => rfl }
    · cases h
      exact .completes ‹_› rfl fun hclosed => by simp_all [connAt]
    · cases h

/-- The check of a transaction passes only with the transport open, and that of a WRITE only up to 126 bytes (R170). -/
theorem writeCheck_none {c : Conn} {len : Half} (h : writeCheck c len = none) :
    c = .i2cMode ∧ len.toNat ≤ Config.maxWriteLen := by
  unfold writeCheck lenTooLong at h
  split at h
  · cases h
  · split at h
    · cases h
    · simp_all

theorem writeCheck_some {c : Conn} {len : Half} {e : Status} (h : writeCheck c len = some e) :
    e = .invalidStateError ∨ e = .payloadTooLargeError := by
  unfold writeCheck at h
  split at h
  · simp_all
  · split at h <;> simp_all

theorem readCheck_none {c : Conn} (h : readCheck c = none) : c = .i2cMode := by
  unfold readCheck at h
  split at h <;> simp_all

theorem readCheck_some {c : Conn} {e : Status} (h : readCheck c = some e) : e = .invalidStateError := by
  unfold readCheck at h
  split at h <;> simp_all

/-- Either strategy has its own first phase of a transaction (R16, R176). -/
theorem OperationStep.starts {s : State} {code : BitVec 3} {q : Operands} {perByte : Seq} (idle : s.busy = false)
    (phase : perByte ∈ firstPhases) (op : opAt perByte code = true) (combinedOp : opAt .xCheck code = true)
    (strat : stratAt perByte .perByte = true) :
    OperationStep s (Machine.accept code q (firstPhase s.strat perByte) s) := by
  cases hstrat : s.strat with
  | perByte => exact .accepted _ _ _ idle phase op (hstrat ▸ strat) rfl
  | combined => exact .accepted _ _ _ idle (by simp [firstPhases]) combinedOp (by rw [hstrat]; rfl) rfl

/-- The abort phase sets DESYNC on an open transport (R213, R214). -/
theorem OperationStep.aborts {s : State} {e : Status} (phase : s.seq = .raised e) :
    OperationStep s (abortTransaction e s) :=
  .completed _ phase e rfl s.strat true
    (fun hinv => ⟨settled_of_i2cMode (hinv.connAt_of phase), fun _ => eq_of_beq (hinv.connAt_of phase)⟩) rfl

theorem execWrite_operationStep {q : Operands} {s t : State}
    (hq : s.busy = true → q = s.args ∧ (s.seq = .xCheck → s.op = 2)) (h : execWrite q s = .next t) :
    OperationStep s t := by
  unfold execWrite at h
  split at h
  · cases h
    exact .starts ‹_› (by simp [firstPhases]) rfl rfl rfl
  · rename_i hb
    obtain ⟨rfl, hop⟩ := hq (by simpa using hb)
    split at h <;> cases h
    · rename_i hseq
      unfold afterCheck
      split
      · refine .moved _ hseq fun _ => { result := fun _ => ?_ }
        obtain rfl | rfl := writeCheck_some ‹_› <;> rfl
      · obtain ⟨hconn, hlen⟩ := writeCheck_none ‹_›
        exact .moved _ hseq fun _ => { conn := fun _ => by simp [connAt, hconn], counters := fun _ => hlen }
    · rename_i hseq
      unfold afterCombinedCheck
      split
      · refine .moved _ hseq fun _ => { result := fun _ => ?_ }
        obtain rfl | rfl := writeCheck_some ‹_› <;> simp [resultAt, hop hseq]
      · obtain ⟨hconn, hlen⟩ := writeCheck_none ‹_›
        exact .moved _ hseq fun _ =>
          { conn := fun _ => by simp [connAt, hconn], op := fun _ => by simp [opAt, hop hseq]
            counters := fun _ => ⟨rfl, fun _ => hlen⟩ }
    · exact .completes ‹_›
    · exact .completes ‹_›
    · exact .aborts ‹_›

theorem execRead_operationStep {q : Operands} {s t : State} (hq : s.busy = true → s.seq = .xCheck → s.op ≠ 2)
    (h : execRead q s = .next t) : OperationStep s t := by
  unfold execRead at h
  split at h
  · cases h
    exact .starts ‹_› (by simp [firstPhases]) rfl rfl rfl
  · rename_i hb
    have hop := hq (by simpa using hb)
    split at h <;> cases h
    · rename_i hseq
      unfold afterCheck
      split
      · obtain rfl := readCheck_some ‹_›
        exact .moved _ hseq fun _ => { result := fun _ => rfl }
      · have hconn := readCheck_none ‹_›
        exact .moved _ hseq fun _ => { conn := fun _ => by simp [connAt, hconn] }
    · rename_i hseq
      unfold afterCombinedCheck
      split
      · obtain rfl := readCheck_some ‹_›
        exact .moved _ hseq fun _ => { result := fun _ => rfl }
      · have hconn := readCheck_none ‹_›
        exact .moved _ hseq fun _ =>
          { conn := fun _ => by simp [connAt, hconn], op := fun hlegal => by simp_all [opAt]
            counters := fun _ => ⟨rfl, fun hwrite => absurd hwrite (hop hseq)⟩ }
    · exact .completes ‹_›
    · exact .completes ‹_›
    · exact .aborts ‹_›

theorem execDelay_operationStep {q : Operands} {s t : State} (h : execDelay q s = .next t) : OperationStep s t := by
  unfold execDelay at h
  split at h
  · cases h
    exact .accepted _ _ _ ‹_› (by simp [firstPhases]) rfl rfl rfl
  · split at h <;> cases h
    · exact .moved _ ‹_› fun _ => {}
    · exact .completes ‹_›

/-! ## Any step -/

theorem transactionOf_eq_write {s : State} {q : Operands} : transactionOf s = .write q ↔ s.op = 2 ∧ s.args = q := by
  unfold transactionOf
  split <;> simp_all

@[simp] theorem wtrOf_ne_write (last : Bool) (s : State) (q : Operands) : wtrOf last s ≠ .write q := by
  obtain ⟨r, out, h⟩ := wtrOf_wtr last s
  simp [h]

/-- SEQ calls for WRITE only with the latched operands, and in a phase that READ has too only where OP names it. -/
theorem phaseInstr_write {s : State} {q : Operands} (h : phaseInstr s = some (.write q)) :
    q = s.args ∧ (s.seq = .xCheck → s.op = 2) := by
  unfold phaseInstr at h
  split at h <;> simp_all [addrSelectOf, transactionOf_eq_write]

theorem phaseInstr_read {s : State} {q : Operands} (h : phaseInstr s = some (.read q)) :
    s.seq = .xCheck → s.op ≠ 2 := by
  intro hseq hop
  simp [phaseInstr, hseq, transactionOf, hop] at h

/-- A due instruction is a frame in flight, or a step of a host operation. -/
theorem exec_operationStep {s t : State} {i : Instr} (hf : fetch s = some i) (h : exec i s = .next t)
    (hframe : isFrame i = false) : OperationStep s t := by
  have hdue : s.busy = true → phaseInstr s = some i := fun hb => by rw [← fetch_of_busy hb, hf]
  cases i with
  | init q => exact execInit_operationStep h
  | close q => exact execClose_operationStep h
  | write q => exact execWrite_operationStep (fun hb => phaseInstr_write (hdue hb)) h
  | read q => exact execRead_operationStep (fun hb => phaseInstr_read (hdue hb)) h
  | delay q => exact execDelay_operationStep h
  | reservedOp5 q | reservedOp6 q | reservedOp7 q => cases h
  | _ => cases hframe

theorem Inv.applyReset {s : State} (hinv : Inv s) (backlog : List Byte) : Inv (applyReset backlog s) :=
  ⟨by simp, rfl, rfl, rfl, rfl, trivial, rfl, nofun, by simp, hinv.wbuf_wf, hinv.rbuf_wf⟩

/-- Settles O11: a reset, a frame in flight and a step of a host operation each lead to a legal state. -/
theorem stepKeepsLegal : Obligations.StepKeepsLegal := by
  intro s t hinv h
  cases hr : s.resetReq with
  | some backlog =>
    rw [step_of_reset hr] at h
    cases h
    exact hinv.applyReset backlog
  | none =>
    obtain ⟨-, rfl⟩ | ⟨i, hf, hexec⟩ := step_next hr h
    · exact hinv
    · cases hframe : isFrame i with
      | true => exact (fetch_frame hf hframe).legal hinv hexec
      | false => exact (exec_operationStep hf hexec hframe).legal hinv

end Sys2Proof.Machine
end

section
/-!
PROOFS. AWAIT along the wire (40_transport_arbiter R99): what a receive leaves owed in each phase, and the statements
about the history of transport calls.
-/
namespace Sys2Proof.Machine

/-- The step received bytes, and AWAIT is less by their number, or the operation raised (R99). -/
def LowersAwait (s t : State) : Prop :=
  (∃ n a, t.link.wire = s.link.wire ++ [.rx n (.bytes a)] ∧ t.await.toNat = s.await.toNat - a.length) ∨
    (t.await = 0 ∧ ∃ e, t.seq = .raised e ∨ t.seq = .aResetTx e)

/-- A receive of at most what is owed takes its number from AWAIT without wrapping. -/
theorem Received.await_toNat {n : Nat} {s : State} {a : List Byte} {aw : BitVec 17} {l : Link}
    (h : Received n s (.bytes a) a aw l) : aw.toNat = s.await.toNat - a.length := by
  obtain ⟨-, rfl, hlen⟩ := h.bytes
  have howed := h.owed
  rw [BitVec.toNat_sub, BitVec.toNat_ofNat]
  omega

/-- Whatever follows a receive that leaves AWAIT to it, or sets AWAIT to 0 after all that was owed. -/
theorem Received.lowersAwait {n : Nat} {s t : State} {a : List Byte} {aw : BitVec 17} {l : Link}
    (h : Received n s (.bytes a) a aw l) (hlink : t.link = l)
    (hawait : t.await = aw ∨ t.await = 0 ∧ s.await.toNat = a.length) : LowersAwait s t := by
  obtain ⟨-, -, -, hwire⟩ := h.keeps
  refine .inl ⟨n, a, hlink ▸ hwire, ?_⟩
  obtain rfl | ⟨hfree, hall⟩ := hawait
  · exact h.await_toNat
  · simp [hfree, hall]

theorem RaisedBy.lowersAwait {cls : ExchangeClass} {n : Nat} {e : Status} {s t : State} (h : RaisedBy cls n e s t) :
    LowersAwait s t := by
  obtain ⟨r, ab, aw, l, e', -, -, rfl⟩ := h
  refine .inr ⟨raiseError_await _ _ _, e', ?_⟩
  cases cls with
  | neg => exact .inr rfl
  | txn => exact .inl rfl

section Halves

variable {s t : State} {after : State → State}

/-- A whole acknowledgment is all that was owed, and what follows it keeps AWAIT at 0. -/
theorem receiveAck_lowersAwait {cls : ExchangeClass} {n : Nat}
    (h : receiveAck cls n (fun u => .next (after u)) s = .next t) (howed : s.await.toNat = n)
    (hawait : ∀ u, (after u).await = u.await := by exact fun _ => rfl)
    (hlink : ∀ u, (after u).link = u.link := by exact fun _ => rfl) : t = s ∨ LowersAwait s t := by
  obtain rfl | hraise | ⟨a, aw, l, hrecv, hlen, hnext⟩ := receiveAck_shape h
  · exact .inl rfl
  · exact .inr hraise.lowersAwait
  · cases hnext
    exact .inr (hrecv.lowersAwait (hlink _) (.inr ⟨hawait _, howed.trans hlen.symm⟩))

theorem receiveLiteral_lowersAwait {literal : List Byte}
    (h : receiveLiteral literal (fun u => .next (after u)) s = .next t) (howed : s.await.toNat = literal.length)
    (hawait : ∀ u, (after u).await = u.await := by exact fun _ => rfl)
    (hlink : ∀ u, (after u).link = u.link := by exact fun _ => rfl) : t = s ∨ LowersAwait s t := by
  obtain rfl | hraise | ⟨aw, l, hrecv, hnext⟩ := receiveLiteral_shape h
  · exact .inl rfl
  · exact .inr hraise.lowersAwait
  · cases hnext
    exact .inr (hrecv.lowersAwait (hlink _) (.inr ⟨hawait _, howed⟩))

theorem readByte_lowersAwait (h : receiveAck .txn 1 storeByte s = .next t) (howed : s.await.toNat = 1) :
    t = s ∨ LowersAwait s t := by
  obtain rfl | hraise | ⟨a, aw, l, hrecv, hlen, hstore⟩ := receiveAck_shape h
  · exact .inl rfl
  · exact .inr hraise.lowersAwait
  · unfold storeByte at hstore
    split at hstore <;> cases hstore
    exact .inr (hrecv.lowersAwait rfl (.inr ⟨rfl, howed.trans hlen.symm⟩))

theorem wtrStatus_lowersAwait {last : Bool} {r : Half}
    (h : receiveExactly .txn 1 (checkStatus last r) s = .next t) : t = s ∨ LowersAwait s t := by
  obtain rfl | hraise | ⟨a, aw, l, hrecv, -, hstatus⟩ := receiveExactly_shape h
  · exact .inl rfl
  · exact .inr hraise.lowersAwait
  · unfold checkStatus at hstatus
    split at hstatus <;> cases hstatus
    · exact .inr (hrecv.lowersAwait (nextInput_link _ _) (.inl (nextInput_await _ _)))
    · exact .inr (.inr ⟨rfl, _, .inl rfl⟩)

theorem wtrInput_lowersAwait {last : Bool} (h : receiveInput last s = .next t) : t = s ∨ LowersAwait s t := by
  obtain rfl | hraise | ⟨a, aw, l, hrecv, -, hstore⟩ := receiveInput_shape h
  · exact .inl rfl
  · exact .inr hraise.lowersAwait
  · unfold storeInput at hstore
    split at hstore <;> cases hstore
    exact .inr (hrecv.lowersAwait (nextInput_link _ _) (.inl (nextInput_await _ _)))

end Halves

/-- In a phase that is owed bytes the frame in flight waits, or lowers AWAIT by what it receives, or raises. -/
theorem exec_lowersAwait {s t : State} {i : Instr} (hinv : Inv s) (ho : owed s ≠ 0) (hdue : phaseInstr s = some i)
    (h : exec i s = .next t) : t = s ∨ LowersAwait s t := by
  have howed := hinv.await_owed
  cases hseq : s.seq <;> simp only [owed, hseq, ne_eq, not_true_eq_false] at ho howed <;>
    simp only [phaseInstr, hseq, Option.some.injEq] at hdue <;> subst hdue
  case iBinRx => exact receiveLiteral_lowersAwait ((exec_enterBinary_receive s hseq).symm.trans h) howed
  case iI2cRx => exact receiveLiteral_lowersAwait ((exec_enterI2c_receive s hseq).symm.trans h) howed
  case wAddrRx =>
    exact receiveAck_lowersAwait ((exec_addrSelect_writeReceive _ _ _ s hseq).symm.trans h) howed
      (fun _ => nextChunk_await _) fun _ => nextChunk_link _
  case wHdrRx => exact receiveAck_lowersAwait ((exec_bulkHdr_receive _ s hseq).symm.trans h) howed
  case wPayRx =>
    rw [← payloadOf_length] at howed
    exact receiveAck_lowersAwait ((exec_bulkPayload_receive _ s hseq).symm.trans h) howed
      (fun _ => nextChunk_await _) fun _ => nextChunk_link _
  case wStopRx => exact receiveAck_lowersAwait ((exec_stop_receive s hseq).symm.trans h) howed
  case rAddrRx => exact receiveAck_lowersAwait ((exec_addrSelect_readReceive _ _ _ s hseq).symm.trans h) howed
  case rReselRx => exact receiveAck_lowersAwait ((exec_reselectRead_receive _ s hseq).symm.trans h) howed
  case rByteRx => exact readByte_lowersAwait ((exec_readByte_receive s hseq).symm.trans h) howed
  case rEndRx => exact receiveAck_lowersAwait ((exec_endRead_receive s hseq).symm.trans h) howed
  case xStatRx last =>
    obtain ⟨r, out, hwtr⟩ := wtrOf_wtr last s
    rw [hwtr, exec_wtr_status r out last s hseq] at h
    exact wtrStatus_lowersAwait h
  case xDataRx last =>
    obtain ⟨r, out, hwtr⟩ := wtrOf_wtr last s
    rw [hwtr, exec_wtr_input r out last s hseq] at h
    exact wtrInput_lowersAwait h

/-! ## The statements -/

/-- A step that made an `RX` started where bytes were owed. -/
theorem owed_of_receive {s t : State} {n : Nat} {r : RxResult} (hinv : Inv s) (hr : s.resetReq = none)
    (h : step s = .next t) (hwire : t.link.wire = s.link.wire ++ [.rx n r]) : owed s ≠ 0 := by
  obtain ⟨hpos, -⟩ := receivesOnlyWhatIsOwed s t n r hinv hr h hwire
  exact (hinv.await_owed ▸ hpos).ne'

/-- Settles O17: the state after the step is legal, so AWAIT is what its phase is owed; what a receive leaves is said
phase by phase. -/
theorem awaitFollowsTheWire : Obligations.AwaitFollowsTheWire := by
  intro s t hinv hr h
  have hlegal := stepKeepsLegal s t hinv h
  have hfree : owed t = 0 → t.await = 0 := fun ho => BitVec.eq_of_toNat_eq (hlegal.await_owed.trans ho)
  refine ⟨fun _ _ => hlegal.await_owed, fun n a hwire => ?_, ?_, fun hidle => ?_⟩
  · have ho := owed_of_receive hinv hr h hwire
    have hb := hinv.busy_of_owed ho
    obtain ⟨i, hi⟩ := hinv.due_of_busy hb
    rw [step_of_fetch hr (by rw [fetch_of_busy hb, hi])] at h
    obtain rfl | ⟨n', a', hwire', hless⟩ | hraised := exec_lowersAwait hinv ho hi h
    · simp at hwire
    · obtain ⟨-, rfl⟩ : n' = n ∧ a' = a := by simpa [hwire'] using hwire
      exact .inl hless
    · exact .inr hraised
  · rintro ⟨e, hseq | hseq⟩ <;> exact hfree (by simp [owed, hseq])
  · by_contra howes
    have hb := hlegal.busy_of_owed (mt hfree howes)
    simp [hidle] at hb

/-- Settles O18: a reset makes no call, and any other step at most the one of its due instruction. -/
theorem wireGrowsByAtMostOneCall : Obligations.WireGrowsByAtMostOneCall := by
  intro s t h
  cases hr : s.resetReq with
  | some backlog =>
    rw [step_of_reset hr] at h
    cases h
    exact .inl rfl
  | none =>
    obtain hsame | ⟨i, -, hstep⟩ := step_wireStep hr h
    · exact .inl hsame
    · cases hstep with
      | kept hsame => exact .inl hsame
      | control c hcontrol hgrown => exact .inr ⟨c, hgrown⟩
      | sent r l call link =>
        obtain ⟨-, -, -, -, hgrown⟩ := call.keeps
        exact .inr ⟨_, link ▸ hgrown⟩
      | received r ab aw l call link =>
        obtain ⟨-, -, -, hgrown⟩ := call.keeps
        exact .inr ⟨_, link ▸ hgrown⟩

end Sys2Proof.Machine
end

section
/-!
PROOFS. The results an operation can end with (60_exceptions R200): the completion reports what its phase holds, and a legal
state ties that to OP.
-/
namespace Sys2Proof.Machine

/-- A wire frame completes nothing. -/
theorem exec_frame_quiet {s t : State} {i : Instr} (hframe : isFrame i = true) (h : exec i s = .next t) :
    Quiet s t := by
  cases i with
  | enterBinary => exact execEnterBinary_quiet h
  | enterI2c => exact execEnterI2c_quiet h
  | addrSelect dev dir reg => exact execAddrSelect_quiet h
  | reselectRead dev => exact execReselectRead_quiet h
  | bulkHdr n => exact execBulkHdr_quiet h
  | bulkPayload data => exact execBulkPayload_quiet h
  | stop => exact execStop_quiet h
  | readByte => exact execReadByte_quiet h
  | endRead => exact execEndRead_quiet h
  | resetTerm => exact execResetTerm_quiet h
  | wtr r out => exact execWtr_quiet h
  | _ => cases hframe

/-- The step that clears BUSY reports the result its phase holds (R104). -/
theorem resultOf_of_completion {s t : State} (hinv : Inv s) (hr : s.resetReq = none) (hb : s.busy = true)
    (h : step s = .next t) (hidle : t.busy = false) : resultOf s.seq = some t.status := by
  have running_ne : t.busy ≠ s.busy := by simp [hb, hidle]
  obtain ⟨-, rfl⟩ | ⟨i, hf, hexec⟩ := step_next hr h
  · exact absurd rfl running_ne
  · cases hframe : isFrame i with
    | true => exact absurd (exec_frame_quiet hframe hexec).busy running_ne
    | false =>
      cases exec_operationStep hf hexec hframe with
      | accepted code q first idle => simp [hb] at idle
      | waiting next => exact absurd (congrArg State.busy next) running_ne
      | moved a phase laws => exact absurd (laws hinv).busy running_ne
      | completed a phase r result strat desync settled next => rw [phase, result, next]; rfl

theorem exchangeError_cases {p : Params} {e : Status} (h : exchangeError p e = true) :
    e = .protocolMismatchError ∨ e = .timeoutError := by
  simp only [exchangeError, Bool.or_eq_true, Bool.and_eq_true, beq_iff_eq] at h
  exact h.imp_right And.left

/-- Settles O24: the completion reports what its phase holds, and a legal state names the operation and the results of each
such phase. -/
theorem resultsByOperation : Obligations.ResultsByOperation := by
  intro s t hinv hr hb h hidle
  have hresult := resultOf_of_completion hinv hr hb h hidle
  have hop := hinv.op_legal
  have hlegal := hinv.result_legal
  generalize t.status = r at hresult
  cases hseq : s.seq <;> rw [hseq] at hresult <;> cases hresult <;>
    simp only [opAt, hseq, resultAt, Bool.or_eq_true, Bool.and_eq_true, beq_iff_eq] at hop hlegal
  case iDone | dDone => simp [hop]
  case aDone =>
    obtain ((he | rfl) | rfl) | rfl := hlegal
    · obtain rfl | rfl := exchangeError_cases he <;> simp [hop]
    all_goals simp [hop]
  case cDone | rDone => obtain rfl | rfl := hlegal <;> simp [hop]
  case wDone => obtain (rfl | rfl) | rfl := hlegal <;> simp [hop]
  case xDone =>
    obtain (rfl | rfl) | ⟨rfl, hwrite⟩ := hlegal
    · obtain hop | hop := hop <;> simp [hop]
    · obtain hop | hop := hop <;> simp [hop]
    · simp [hwrite]
  case raised =>
    obtain (he | rfl) | ⟨⟨rfl, hread⟩, -⟩ := hlegal
    · obtain rfl | rfl := exchangeError_cases he <;> obtain hop | hop := hop <;> simp [hop]
    · obtain hop | hop := hop <;> simp [hop]
    · simp [hread]

end Sys2Proof.Machine
end

section
/-!
PROOFS. What the frames that store nothing leave alone (41_mode_negotiator R122, R123, R149; 42_frame_codec R141 to R148).
-/
namespace Sys2Proof.Machine

/-- A phase of a frame that stores nothing and leaves REMAIN to the Combined strategy (R21, R42). -/
structure KeepsBuffers (s t : State) : Prop where
  frame  : FrameKeeps s t
  rbuf   : t.rbuf = s.rbuf := by simp
  remain : t.remain = s.remain := by simp

theorem KeepsBuffers.read {s t : State} (h : KeepsBuffers s t) (i : Nat) : t.rbuf.read i = s.rbuf.read i := by
  rw [h.rbuf]

theorem MovesNoCounter.keepsBuffers {s t : State} (h : MovesNoCounter s t) : KeepsBuffers s t :=
  ⟨h.frame, h.rbuf, h.remain⟩

/-! ## The acknowledgments -/

section Acknowledgments

variable {s t : State} {cls : ExchangeClass} {n : Nat} {after : State → State}

/-- The answers of the control calls are as they were in the link after a receive. -/
def KeepsControlAnswers (s : State) (l : Link) : Prop := l.opens = s.link.opens ∧ l.configs = s.link.configs

/-- A receive half moves no counter, or its acknowledgment is followed by `after`. -/
theorem receiveAck_keeps (hquiet : Quiet s t) (h : receiveAck cls n (fun u => .next (after u)) s = .next t) :
    MovesNoCounter s t ∨
      ∃ a l, KeepsControlAnswers s l ∧ t = after { s with abuf := a, await := 0, link := l } := by
  obtain rfl | hraise | ⟨a, aw, l, hrecv, -, hnext⟩ := receiveAck_shape h
  · exact .inl { frame := hquiet.frameKeeps rfl rfl rfl }
  · exact .inl hraise.movesNoCounter
  · cases hnext
    obtain ⟨-, hopens, hconfigs, -⟩ := hrecv.keeps
    exact .inr ⟨a, l, ⟨hopens, hconfigs⟩, rfl⟩

theorem receiveLiteral_keeps {literal : List Byte} (hquiet : Quiet s t)
    (h : receiveLiteral literal (fun u => .next (after u)) s = .next t) :
    MovesNoCounter s t ∨
      ∃ l, KeepsControlAnswers s l ∧ t = after { s with abuf := literal, await := 0, link := l } := by
  obtain rfl | hraise | ⟨aw, l, hrecv, hnext⟩ := receiveLiteral_shape h
  · exact .inl { frame := hquiet.frameKeeps rfl rfl rfl }
  · exact .inl hraise.movesNoCounter
  · cases hnext
    obtain ⟨-, hopens, hconfigs, -⟩ := hrecv.keeps
    exact .inr ⟨l, ⟨hopens, hconfigs⟩, rfl⟩

/-- An acknowledgment that is followed by a move of SEQ alone. -/
theorem receiveAck_movesNoCounter {ph : Seq} (hquiet : Quiet s t)
    (h : receiveAck cls n (fun u => .next { u with seq := ph }) s = .next t) : MovesNoCounter s t := by
  obtain hkept | ⟨a, l, ⟨hopens, hconfigs⟩, rfl⟩ := receiveAck_keeps hquiet h
  · exact hkept
  · exact { frame := hquiet.frameKeeps rfl hopens hconfigs }

end Acknowledgments

/-! ## The frames -/

/-- A phase of a handshake: CONN moves only with the acknowledgment, in phase `rx` to `c` (R122, R123). -/
structure HandshakeKeeps (rx : Seq) (c : Conn) (s t : State) : Prop where
  buffers  : KeepsBuffers s t
  cursor   : t.cursor = s.cursor
  chunkN   : t.chunkN = s.chunkN
  conn     : t.conn = s.conn ∨ (s.seq = rx ∧ t.conn = c)

theorem MovesNoCounter.handshakeKeeps {s t : State} (h : MovesNoCounter s t) (rx : Seq) (c : Conn) :
    HandshakeKeeps rx c s t :=
  ⟨h.keepsBuffers, h.cursor, h.chunkN, .inl h.conn⟩

theorem receiveLiteral_handshakeKeeps {rx ph : Seq} {c : Conn} {literal : List Byte} {s t : State}
    (hquiet : Quiet s t) (hseq : s.seq = rx)
    (h : receiveLiteral literal (fun u => .next { u with conn := c, seq := ph }) s = .next t) :
    HandshakeKeeps rx c s t := by
  obtain hkept | ⟨l, ⟨hopens, hconfigs⟩, rfl⟩ := receiveLiteral_keeps hquiet h
  · exact hkept.handshakeKeeps rx c
  · exact ⟨{ frame := hquiet.frameKeeps rfl hopens hconfigs }, rfl, rfl, .inr ⟨hseq, rfl⟩⟩

theorem execEnterBinary_handshakeKeeps {s t : State} (h : execEnterBinary s = .next t) :
    HandshakeKeeps .iBinRx .binaryMode s t := by
  have hquiet := execEnterBinary_quiet h
  unfold execEnterBinary at h
  split at h
  · exact (sendFrame_movesNoCounter h).handshakeKeeps _ _
  · exact receiveLiteral_handshakeKeeps hquiet ‹_› h
  · cases h

theorem execEnterI2c_handshakeKeeps {s t : State} (h : execEnterI2c s = .next t) :
    HandshakeKeeps .iI2cRx .i2cMode s t := by
  have hquiet := execEnterI2c_quiet h
  unfold execEnterI2c at h
  split at h
  · exact (sendFrame_movesNoCounter h).handshakeKeeps _ _
  · exact receiveLiteral_handshakeKeeps hquiet ‹_› h
  · cases h

theorem execBulkHdr_movesNoCounter {n : BitVec 4} {s t : State} (h : execBulkHdr n s = .next t) :
    MovesNoCounter s t := by
  have hquiet := execBulkHdr_quiet h
  unfold execBulkHdr at h
  split at h
  · exact sendFrame_movesNoCounter h
  · exact receiveAck_movesNoCounter hquiet h
  · cases h

theorem execStop_movesNoCounter {s t : State} (h : execStop s = .next t) : MovesNoCounter s t := by
  have hquiet := execStop_quiet h
  unfold execStop at h
  split at h
  · exact sendFrame_movesNoCounter h
  · exact receiveAck_movesNoCounter hquiet h
  · cases h

theorem execEndRead_movesNoCounter {s t : State} (h : execEndRead s = .next t) : MovesNoCounter s t := by
  have hquiet := execEndRead_quiet h
  unfold execEndRead at h
  split at h
  · exact sendFrame_movesNoCounter h
  · exact receiveAck_movesNoCounter hquiet h
  · cases h

/-- RESELECT_READ's acknowledgment starts the data phase with CURSOR 0 (R173). -/
theorem execReselectRead_frame {dev : BitVec 7} {s t : State} (h : execReselectRead dev s = .next t) :
    KeepsBuffers s t ∧ t.conn = s.conn ∧ t.chunkN = s.chunkN ∧
      (t.cursor = s.cursor ∨ (s.seq = .rReselRx ∧ t.cursor = 0)) := by
  have hquiet := execReselectRead_quiet h
  unfold execReselectRead at h
  split at h
  · have hkept := sendFrame_movesNoCounter h
    exact ⟨hkept.keepsBuffers, hkept.conn, hkept.chunkN, .inl hkept.cursor⟩
  · rename_i hseq
    obtain hkept | ⟨a, l, ⟨hopens, hconfigs⟩, rfl⟩ := receiveAck_keeps hquiet h
    · exact ⟨hkept.keepsBuffers, hkept.conn, hkept.chunkN, .inl hkept.cursor⟩
    · exact ⟨{ frame := hquiet.frameKeeps rfl hopens hconfigs }, rfl, rfl, .inr ⟨hseq, rfl⟩⟩
  · cases h

/-- A frame of a WRITE's data: CURSOR and CHUNK_N change only with the acknowledgments that lead to the loop head (R171). -/
structure MovesAtLoopHead (s t : State) : Prop where
  buffers  : KeepsBuffers s t
  conn     : t.conn = s.conn
  counters : s.seq ≠ .wAddrRx → s.seq ≠ .wPayRx → t.cursor = s.cursor ∧ t.chunkN = s.chunkN

theorem MovesNoCounter.movesAtLoopHead {s t : State} (h : MovesNoCounter s t) : MovesAtLoopHead s t :=
  ⟨h.keepsBuffers, h.conn, fun _ _ => ⟨h.cursor, h.chunkN⟩⟩

theorem receiveAck_movesAtLoopHead {cls : ExchangeClass} {n : Nat} {cursor : State → Half} {s t : State}
    (hquiet : Quiet s t) (phase : s.seq = .wAddrRx ∨ s.seq = .wPayRx)
    (h : receiveAck cls n (fun u => .next (nextChunk { u with cursor := cursor u })) s = .next t) :
    MovesAtLoopHead s t := by
  obtain hkept | ⟨a, l, ⟨hopens, hconfigs⟩, rfl⟩ := receiveAck_keeps hquiet h
  · exact hkept.movesAtLoopHead
  · have hframe := hquiet.frameKeeps (by simp) (by simpa using hopens) (by simpa using hconfigs)
    exact ⟨{ frame := hframe }, by simp, fun haddr hpay => absurd phase (not_or.mpr ⟨haddr, hpay⟩)⟩

theorem execAddrSelect_movesAtLoopHead {dev : BitVec 7} {dir : Direction} {reg : Byte} {s t : State}
    (h : execAddrSelect dev dir reg s = .next t) : MovesAtLoopHead s t := by
  have hquiet := execAddrSelect_quiet h
  unfold execAddrSelect at h
  split at h
  · exact (sendFrame_movesNoCounter h).movesAtLoopHead
  · exact receiveAck_movesAtLoopHead hquiet (.inl ‹_›) h
  · exact (sendFrame_movesNoCounter h).movesAtLoopHead
  · exact (receiveAck_movesNoCounter hquiet h).movesAtLoopHead
  · cases h

theorem execBulkPayload_movesAtLoopHead {data : List Byte} {s t : State} (h : execBulkPayload data s = .next t) :
    MovesAtLoopHead s t := by
  have hquiet := execBulkPayload_quiet h
  unfold execBulkPayload at h
  split at h
  · split at h
    · cases h
    · exact (sendFrame_movesNoCounter h).movesAtLoopHead
  · exact receiveAck_movesAtLoopHead hquiet (.inr ‹_›) h
  · cases h

/-- RESET_TERM receives nothing, so ABUF, AWAIT and the receive side of the link stay as well (R149). -/
theorem execResetTerm_frame {s t : State} (h : execResetTerm s = .next t) :
    MovesNoCounter s t ∧ t.abuf = s.abuf ∧ t.await = s.await ∧ t.link.rx = s.link.rx ∧
      t.link.recvs = s.link.recvs := by
  have hquiet := execResetTerm_quiet h
  have sent_keeps {ph : Seq} (hsend : sendBestEffort (frameBytes s.params .resetTerm) ph s = .next t) :
      MovesNoCounter s t ∧ t.abuf = s.abuf ∧ t.await = s.await ∧ t.link.rx = s.link.rx ∧
        t.link.recvs = s.link.recvs := by
    obtain rfl | ⟨r, l, hsent, rfl⟩ := sendBestEffort_shape hsend
    · exact ⟨{ frame := hquiet.frameKeeps rfl rfl rfl }, rfl, rfl, rfl, rfl⟩
    · obtain ⟨hrx, hopens, hconfigs, hrecvs, -⟩ := hsent.keeps
      exact ⟨{ frame := hquiet.frameKeeps rfl hopens hconfigs }, rfl, rfl, hrx, hrecvs⟩
  unfold execResetTerm at h
  split at h
  · exact sent_keeps h
  · exact sent_keeps h
  · cases h

/-- Settles O49, frame by frame. -/
theorem nonStoringFramesFrame : Obligations.NonStoringFramesFrame := by
  intro s t dev dir reg n data
  refine ⟨fun h => ?_, fun h => ?_, fun h => ?_, fun h => ?_, fun h => ?_, fun h => ?_⟩
  · obtain ⟨hkept, hcursor, hchunk, hconn⟩ := execEnterBinary_handshakeKeeps h
    exact ⟨hkept.frame, hkept.read, hkept.remain, hcursor, hchunk, hconn⟩
  · obtain ⟨hkept, hcursor, hchunk, hconn⟩ := execEnterI2c_handshakeKeeps h
    exact ⟨hkept.frame, hkept.read, hkept.remain, hcursor, hchunk, hconn⟩
  · have hkept : MovesNoCounter s t := by
      obtain h | h | h := h
      · exact execBulkHdr_movesNoCounter h
      · exact execStop_movesNoCounter h
      · exact execEndRead_movesNoCounter h
    exact ⟨hkept.frame, hkept.keepsBuffers.read, hkept.remain, hkept.conn, hkept.cursor, hkept.chunkN⟩
  · obtain ⟨hkept, hrest⟩ := execReselectRead_frame h
    exact ⟨hkept.frame, hkept.read, hkept.remain, hrest⟩
  · obtain ⟨hkept, hconn, hcounters⟩ : MovesAtLoopHead s t :=
      h.elim execAddrSelect_movesAtLoopHead execBulkPayload_movesAtLoopHead
    exact ⟨hkept.frame, hkept.read, hkept.remain, hconn, hcounters⟩
  · obtain ⟨hkept, hrest⟩ := execResetTerm_frame h
    exact ⟨hkept.frame, hkept.keepsBuffers.read, hkept.remain, hkept.conn, hkept.cursor, hkept.chunkN, hrest⟩

end Sys2Proof.Machine
end

section
/-!
PROOFS. CLOSE and DELAY from request to completion (41_mode_negotiator R126 to R128; 43_bridge_ops R185).
-/
namespace Sys2Proof.Machine

theorem exec_delay_wait {q : Operands} {s : State} (hb : s.busy = true) (hseq : s.seq = .dWait) :
    exec (.delay q) s = .next { s with seq := .dDone } := by
  obtain ⟨hwait, -⟩ := delayOnlyCompletes q s hb
  exact hwait hseq

theorem exec_delay_done {q : Operands} {s : State} (hb : s.busy = true) (hseq : s.seq = .dDone) :
    exec (.delay q) s = .next (complete .ok s) := by
  obtain ⟨-, hdone⟩ := delayOnlyCompletes q s hb
  exact hdone hseq

/-- Settles O52: the acceptance and the two phases of DELAY. -/
theorem delayRuns : Obligations.DelayRuns := by
  intro q s hready hidle
  obtain ⟨-, -, -, -, haccept⟩ := acceptanceLatchesTheRequest q s hready.idle
  refine run_of_request hready haccept ?_
  refine run_of_exec hready.noReset rfl rfl (exec_delay_wait rfl rfl) ?_
  refine run_of_exec hready.noReset rfl rfl (exec_delay_done rfl rfl) ?_
  simp [Host.Core.run, complete, hready.settled, hready.idle, ← hidle]

section Close

variable {q : Operands} {s : State}

theorem exec_close_refused (hb : s.busy = true) (hseq : s.seq = .cCheck) (hclosed : s.conn = .closed) :
    exec (.close q) s = .next { s with seq := .cDone .invalidStateError } := by
  obtain ⟨hrefused, -⟩ := closeChecksReleasesCompletes q s hb
  exact hrefused hseq hclosed

theorem exec_close_checked (hb : s.busy = true) (hseq : s.seq = .cCheck) (hheld : s.conn ≠ .closed) :
    exec (.close q) s = .next { s with seq := .cResetTx } := by
  obtain ⟨-, hchecked, -⟩ := closeChecksReleasesCompletes q s hb
  exact hchecked hseq hheld

theorem exec_close_release (hb : s.busy = true) (hseq : s.seq = .cRelease) (hheld : s.conn ≠ .closed) :
    exec (.close q) s = .next
      { s with conn := .closed, desync := false, seq := .cDone .ok,
               link := { s.link with wire := s.link.wire ++ [.release] } } := by
  obtain ⟨-, -, hrelease, -⟩ := closeChecksReleasesCompletes q s hb
  exact hrelease hseq hheld

theorem exec_close_done {r : Status} (hb : s.busy = true) (hseq : s.seq = .cDone r) :
    exec (.close q) s = .next (complete r s) := by
  obtain ⟨-, -, -, hdone⟩ := closeChecksReleasesCompletes q s hb
  exact hdone r hseq

end Close

/-- Settles O53: a CLOSE of a Closed block ends after its check; of an open one it goes through its frame and the
release. -/
theorem closeRuns : Obligations.CloseRuns := by
  intro q s hready hidle
  obtain ⟨-, haccept, -⟩ := acceptanceLatchesTheRequest q s hready.idle
  refine ⟨fun hclosed => ?_, fun a rest hopen hsends => ?_⟩
  · refine run_of_request hready haccept ?_
    refine run_of_exec hready.noReset rfl rfl (exec_close_refused rfl rfl hclosed) ?_
    refine run_of_exec hready.noReset rfl rfl (exec_close_done rfl rfl) ?_
    simp [Host.Core.run, complete, hready.settled, hready.idle, ← hidle]
  · have hheld : s.conn ≠ .closed := by simp [hopen]
    refine run_of_request hready haccept ?_
    refine run_of_exec hready.noReset rfl rfl (exec_close_checked rfl rfl hheld) ?_
    refine run_of_exec hready.noReset rfl rfl (exec_resetTerm_close ⟨rfl, hheld, hready.settled, hsends⟩) ?_
    refine run_of_exec hready.noReset rfl rfl (exec_close_release rfl rfl hheld) ?_
    refine run_of_exec hready.noReset rfl rfl (exec_close_done rfl rfl) ?_
    simp [Host.Core.run, complete, linkSent, hready.settled, hready.idle, ← hidle]

end Sys2Proof.Machine
end

section
/-!
PROOFS. Reset and the reserved operation codes (70_reset R231, R233; 30_encoding R77).
-/
namespace Sys2Proof.Machine

/-- Settles O2: SEQ is idle with nothing owed, the block is Closed, and both buffers are empty. -/
theorem resetIsLegal : Obligations.ResetIsLegal :=
  ⟨iff_of_false Bool.false_ne_true (not_not.mpr rfl), rfl, rfl, rfl, rfl, trivial, rfl, nofun, Nat.zero_le _, rfl, rfl⟩

/-- Settles O3: a reset that is due is one `applyReset`. -/
theorem resetCutsEverything : Obligations.ResetCutsEverything := fun _ _ => step_of_reset

/-- Settles O29: each reserved code has an arm of its own, which looks at neither operands nor state. -/
theorem reservedCodesAreRefused : Obligations.ReservedCodesAreRefused := fun _ _ => ⟨rfl, rfl, rfl⟩

end Sys2Proof.Machine
end

section
/-!
PROOFS. Encoding and decoding (30_encoding R60 to R77): every frame is read back from the front of any bytes, in the mode in
which it is read, and every request is read back.
-/
namespace Sys2Proof.Machine

/-! ## RESET_TERM, which every mode but a payload looks for first (R72) -/

theorem decodeResetTerm_of_first_ne {b : Byte} (hb : b ≠ 0x00#8) (rest : List Byte) :
    decodeResetTerm (b :: rest) = none := by
  cases rest <;> simp [decodeResetTerm, hb]

/-- In the PerByte mode a byte other than `00` is the first of a PerByte frame (R76). -/
theorem decodeFrame_perByte {p : Params} {b : Byte} (hb : b ≠ 0x00#8) (rest : List Byte) :
    decodeFrame p .perByte (b :: rest) = decodePerByte p (b :: rest) := by
  simp [decodeFrame, decodeResetTerm_of_first_ne hb]

/-! ## The frames, one family at a time -/

theorem decodeFrame_enterBinary (p : Params) (rest : List Byte) :
    decodeFrame p .terminal (frameBytes p .enterBinary ++ rest) = .ok (.enterBinary, rest) := by
  simp [decodeFrame, frameBytes, Config.zeroRun, List.replicate_succ, decodeResetTerm, decodeTerminal]

theorem decodeFrame_enterI2c (p : Params) (rest : List Byte) :
    decodeFrame p .binary (frameBytes p .enterI2c ++ rest) = .ok (.enterI2c, rest) := by
  simp [decodeFrame, frameBytes, decodeResetTerm, decodeBinary]

/-- Direction write tells ADDR_SELECT from RESELECT_READ, even if both tags are the same byte (R65, R66). -/
theorem decodeFrame_addrSelect (p : Params) (dev : BitVec 7) (reg : Byte) (rest : List Byte) :
    decodeFrame p .perByte (frameBytes p (.addrSelect dev .write reg) ++ rest) = .ok (.addrSelect dev .write reg, rest) := by
  simp [frameBytes, startMarker, decodeFrame_perByte, decodePerByte, decodeSelect]

theorem decodeFrame_reselectRead (p : Params) (dev : BitVec 7) (rest : List Byte) :
    decodeFrame p .perByte (frameBytes p (.reselectRead dev) ++ rest) = .ok (.reselectRead dev, rest) := by
  simp [frameBytes, startMarker, decodeFrame_perByte, decodePerByte, decodeSelect]

/-- The bulk-write bytes `10` to `1F` are the ones with 1 in their upper half, and begin no other frame (R67). -/
theorem decodeFrame_bulkHdr (p : Params) (n : BitVec 4) (rest : List Byte) :
    decodeFrame p .perByte (frameBytes p (.bulkHdr n) ++ rest) = .ok (.bulkHdr n, rest) := by
  have hfields : ∀ n : BitVec 4, bulkCommand n ≠ 0x00#8 ∧ bulkCommand n ≠ 0x02#8 ∧ bulkCommand n ≠ 0x03#8 ∧
      bulkCommand n ≠ 0x04#8 ∧ (bulkCommand n).extractLsb' 4 4 = 1#4 ∧ (bulkCommand n).extractLsb' 0 4 = n := by decide
  obtain ⟨h0, h2, h3, h4, hhigh, hlow⟩ := hfields n
  simp [frameBytes, decodeFrame_perByte h0, decodePerByte, startMarker, h2, h3, h4, hhigh, hlow]

theorem decodeFrame_bulkPayload (p : Params) (data rest : List Byte) :
    decodeFrame p (.payload data.length) (frameBytes p (.bulkPayload data) ++ rest) = .ok (.bulkPayload data, rest) := by
  simp [decodeFrame, frameBytes, decodePayload]

theorem decodeFrame_stop (p : Params) (rest : List Byte) :
    decodeFrame p .perByte (frameBytes p .stop ++ rest) = .ok (.stop, rest) := by
  simp [frameBytes, decodeFrame_perByte, decodePerByte, startMarker]

theorem decodeFrame_readByte (p : Params) (rest : List Byte) :
    decodeFrame p .perByte (frameBytes p .readByte ++ rest) = .ok (.readByte, rest) := by
  simp [frameBytes, decodeFrame_perByte, decodePerByte, startMarker, decodeReadCommand]

theorem decodeFrame_endRead (p : Params) (rest : List Byte) :
    decodeFrame p .perByte (frameBytes p .endRead ++ rest) = .ok (.endRead, rest) := by
  simp [frameBytes, decodeFrame_perByte, decodePerByte, startMarker, decodeReadCommand]

theorem decodeFrame_resetTerm (p : Params) (rest : List Byte) :
    decodeFrame p .perByte (frameBytes p .resetTerm ++ rest) = .ok (.resetTerm, rest) := by
  simp [decodeFrame, frameBytes, decodeResetTerm]

/-- A WTR of at most 128 bytes has `00` as its second byte, so it is no RESET_TERM even where WTR_CMD is `00` (R73). -/
theorem decodeFrame_wtr (p : Params) (r : Half) {out : List Byte} (hlen : out.length ≤ 128) (rest : List Byte) :
    decodeFrame p .combined (frameBytes p (.wtr r out) ++ rest) = .ok (.wtr r out, rest) := by
  have hlength : (BitVec.ofNat 16 out.length).toNat = out.length := by
    rw [BitVec.toNat_ofNat]
    omega
  have hhigh : highByte (BitVec.ofNat 16 out.length) ≠ 0x0F#8 := by
    intro h
    have hquotient := highByte_toNat (BitVec.ofNat 16 out.length)
    rw [h, hlength, show (0x0F#8).toNat = 15 from rfl] at hquotient
    omega
  simp [decodeFrame, frameBytes, lengthBytes, decodeResetTerm, hhigh, decodeCombined, hlength]

theorem decodeFrame_frameBytes (p : Params) {i : Instr} (hwf : i.wellFormed = true) (hframe : isFrame i = true)
    (rest : List Byte) : decodeFrame p i.mode (frameBytes p i ++ rest) = .ok (i, rest) := by
  cases i with
  | enterBinary => exact decodeFrame_enterBinary p rest
  | enterI2c => exact decodeFrame_enterI2c p rest
  | addrSelect dev dir reg =>
    obtain rfl : dir = .write := by simpa [Instr.wellFormed] using hwf
    exact decodeFrame_addrSelect p dev reg rest
  | reselectRead dev => exact decodeFrame_reselectRead p dev rest
  | bulkHdr n => exact decodeFrame_bulkHdr p n rest
  | bulkPayload data => exact decodeFrame_bulkPayload p data rest
  | stop => exact decodeFrame_stop p rest
  | readByte => exact decodeFrame_readByte p rest
  | endRead => exact decodeFrame_endRead p rest
  | resetTerm => exact decodeFrame_resetTerm p rest
  | wtr r out => exact decodeFrame_wtr p r (of_decide_eq_true hwf) rest
  | _ => cases hframe

/-! ## The statements -/

theorem encode_of_frame {i : Instr} (p : Params) (hframe : isFrame i = true) :
    encode p i = .frame (frameBytes p i) := by
  cases i with
  | init | close | write | read | delay | reservedOp5 | reservedOp6 | reservedOp7 => cases hframe
  | _ => rfl

/-- A host operation is read back from its request, whatever the mode of the line. -/
theorem decode_encode_of_operation {i : Instr} (p : Params) (mode : WireMode) (hop : isFrame i = false) :
    decode p mode (encode p i) = .ok i := by
  cases i with
  | init | close | write | read | delay | reservedOp5 | reservedOp6 | reservedOp7 => rfl
  | _ => cases hop

/-- Settles O8: a host operation is read back from its request, and a frame from the front of its bytes. -/
theorem encodeThenDecode : Obligations.EncodeThenDecode := by
  refine ⟨fun p i hwf => ?_, fun p i rest hwf hframe => decodeFrame_frameBytes p hwf hframe rest⟩
  cases hframe : isFrame i with
  | true =>
    have hback := decodeFrame_frameBytes p hwf hframe []
    rw [List.append_nil] at hback
    simp [encode_of_frame p hframe, decode, hback]
  | false => exact decode_encode_of_operation p i.mode hframe

theorem operationCode_cases : ∀ op : BitVec 3,
    op = 0 ∨ op = 1 ∨ op = 2 ∨ op = 3 ∨ op = 4 ∨ op = 5 ∨ op = 6 ∨ op = 7 := by
  decide

/-- Settles O9: each of the eight operation codes has an instruction of its own. -/
theorem decodeThenEncodeRequest : Obligations.DecodeThenEncodeRequest := by
  rintro p ⟨op, args⟩
  obtain rfl | rfl | rfl | rfl | rfl | rfl | rfl | rfl := operationCode_cases op <;> rfl

/-- Settles O5: the decoder computes each word. -/
theorem specWordsDecode : Obligations.SpecWordsDecode := ⟨rfl, rfl, rfl, rfl, rfl, rfl⟩

/-- The upper half of a byte as a number: 1 in the bytes `10` to `1F` only. -/
theorem upperHalf_ne_one {b : Byte} (hrange : b.toNat < 0x10 ∨ 0x20 ≤ b.toNat) : b.extractLsb' 4 4 ≠ 1#4 := by
  intro hone
  have hhalf := congrArg BitVec.toNat hone
  rw [BitVec.extractLsb'_toNat, Nat.shiftRight_eq_div_pow, BitVec.toNat_ofNat] at hhalf
  have hb := b.isLt
  omega

/-- Settles O10: such a byte fails every comparison of the PerByte decoder, the last one by its upper half. -/
theorem unknownFirstByteIsNoFrame : Obligations.UnknownFirstByteIsNoFrame := by
  intro p b rest h0 h2 h3 h4 hrange
  rw [decodeFrame_perByte h0]
  simp [decodePerByte, startMarker, h2, h3, h4, upperHalf_ne_one hrange]

end Sys2Proof.Machine
end
